-- ==== Sys2Proof/Word.lean ====
section
/-! DEFINITION. The word types of the block's ports and the two-valued Bit type (spec 00 R12, R14; 30 R70, R79, R80). -/

namespace Sys2Proof

/-- A 32-bit port value: a lane carrying the pattern of a Bit, or a native word (30 R79, R80). -/
abbrev Word := BitVec 32

/-- The command byte `CMD[7:0]` (30 R70). -/
abbrev CmdByte := BitVec 8

/-- A Bit is one of two values, ZERO and ONE (00 R14, 40 R100). Its 32-bit pattern is `Sys2Proof.Machine.pat`. -/
inductive Bit where
  | zero
  | one
  deriving DecidableEq, Repr, Inhabited

end Sys2Proof
end

