-- ==== Sys2Proof/Machine/Bits.lean ====
section
/-! DEFINITION. The Bit encoding layer: patterns, classification, the domain check, FSUB, encode_bool and is_one on Bits
(spec 40 R100 to R108). -/

namespace Sys2Proof.Machine

/-- The pattern of ZERO, negative zero (40 R100, 10 R36). -/
def zeroPattern : Word := 0x80000000

/-- The pattern of ONE, positive zero (40 R100, 10 R36). -/
def onePattern : Word := 0x00000000

/-- `pat(b)`: the 32-bit pattern that carries a Bit (00 R14, 40 R100). -/
def pat : Bit → Word
  | .zero => zeroPattern
  | .one => onePattern

/-- `val(b)`: the logical value of a Bit (00 R14). -/
def val : Bit → Nat
  | .zero => 0
  | .one => 1

/-- `bitof(t)`: ONE if `t` holds and ZERO if not (00 R14). -/
def bitof (t : Bool) : Bit := if t then .one else .zero

/-- The Bit a lane carries, read from the sign bit of its pattern alone (40 R101, 70 R233). -/
def classify (w : Word) : Bit := bitof (w.getLsbD 31 == false)

/-- The lane holds exactly 0x00000000 or 0x80000000 (40 R102). -/
def inDomain (w : Word) : Bool := w == 0x00000000#32 || w == 0x80000000#32

/-- FSUB on Bits: the result is ZERO only for ZERO - ONE (40 R103). -/
def fsub (a b : Bit) : Bit := bitof (val a == 1 || val b == 0)

/-- `encode_bool` on the 1-bit boolean of A_BOOL (40 R105). -/
def encodeBool (b : BitVec 1) : Bit := bitof (b == 1#1)

/-- `is_one`, from the sign bit of the lane's word (40 R106). -/
def isOneWord (w : Word) : BitVec 1 := if w.getLsbD 31 == false then 1 else 0

end Sys2Proof.Machine
end

