-- ==== Sys2Proof/Config.lean ====
section
/-! DEFINITION. The parameters of an implementation and the one free value of the model (spec 00 R7 to R11, 20 R51,
43 R189; 92 D9, D12, D13, D17, D21). -/

namespace Sys2Proof

/-- What FADDSS answers in the cases the source leaves unhandled: the parameter `UNHANDLED_FADD_POLICY` (43 R189). -/
inductive FaddPolicy where
  /-- the value of the five steps (43 R187), the spec's default -/
  | ruleValue
  /-- the result lanes are a free draw -/
  | anyValue
  deriving DecidableEq, Repr

/-- The byte order of a host that stores port words in memory: `HOST_BYTE_ORDER` (20 R51, 92 D17). -/
inductive ByteOrder where
  | littleEndian
  | bigEndian
  deriving DecidableEq, Repr, Inhabited

/-- `SRCW`, the width of the native unsigned integer ENC.N reads (00 R9). -/
abbrev Config.srcw : Nat := 32

/-- `DSTW`, the width of the native unsigned integer DEC.N drives (00 R9). -/
abbrev Config.dstw : Nat := 32

/-- `UNHANDLED_FADD_POLICY`, at the default the spec states (43 R189, 92 D12). Log entry 8. -/
def Config.unhandledFaddPolicy : FaddPolicy := .ruleValue

/-- The free draw of an unhandled FADDSS case under `anyValue`, as a function of the two operands' packed words: bit i
of the answer says whether result lane i holds ONE (43 R189; a domain pattern by 40 R108). FREE VALUE: it has no body,
and nothing reads it under the default policy. Log entry 8. -/
opaque Config.unhandledFaddDraw : Word → Word → Word

/-- `HOST_BYTE_ORDER`: open, and read by no rule of the block (20 R51). Log entry 12. -/
opaque Config.hostByteOrder : ByteOrder

end Sys2Proof
end

