-- ==== Sys2Proof/Syntax.lean ====
section
/-! DEFINITION. The commands, one constructor for each row of spec/opcode_table.json, the four soft-integer widths, and
the fields of a command byte (spec 30 R71 to R75). -/

namespace Sys2Proof

/-- The commands (30 R75). A command carries no operand: every operand value arrives on a port (30 R72). -/
inductive Instr where
  | fsub | encb | isone
  | notGate | orGate | andGate | xorGate | fa
  | enc8 | enc23 | enc24 | enc32
  | dec8 | dec23 | dec24 | dec32
  | add8 | add23 | add24 | add32
  | shr8 | shr23 | shr24 | shr32
  | funpack | fpack | faddss
  deriving DecidableEq, Repr

/-- The soft-integer widths of the block instance (00 R7, 30 R73). -/
inductive Width where
  | w8 | w23 | w24 | w32
  deriving DecidableEq, Repr

/-- The fields of a command byte (30 R71). -/
structure CmdFields where
  /-- CMD[7:3] -/
  op   : BitVec 5
  /-- CMD[2] -/
  rsv  : BitVec 1
  /-- CMD[1:0] -/
  wsel : BitVec 2
  deriving DecidableEq, Repr

/-- Why a command byte is illegal (30 R76, R77). -/
inductive DecodeError where
  /-- RSV = 1 -/
  | reservedBitSet
  /-- OP = 0x00 or OP in 0x10 to 0x1F -/
  | reservedOp (op : BitVec 5)
  /-- WSEL is not 0b00 and OP is not width-parameterised -/
  | widthSelectNotZero (op : BitVec 5) (wsel : BitVec 2)
  deriving DecidableEq, Repr

/-- The number of lanes of a width (30 R73). -/
def Width.lanes : Width → Nat
  | .w8  => 8
  | .w23 => 23
  | .w24 => 24
  | .w32 => 32

/-- ENC.N (30 R74, OP 0x09). -/
def Instr.encOf : Width → Instr
  | .w8 => .enc8 | .w23 => .enc23 | .w24 => .enc24 | .w32 => .enc32

/-- DEC.N (30 R74, OP 0x0A). -/
def Instr.decOf : Width → Instr
  | .w8 => .dec8 | .w23 => .dec23 | .w24 => .dec24 | .w32 => .dec32

/-- ADD.N (30 R74, OP 0x0B). -/
def Instr.addOf : Width → Instr
  | .w8 => .add8 | .w23 => .add23 | .w24 => .add24 | .w32 => .add32

/-- SHR.N (30 R74, OP 0x0C). -/
def Instr.shrOf : Width → Instr
  | .w8 => .shr8 | .w23 => .shr23 | .w24 => .shr24 | .w32 => .shr32

/-- The mnemonic of a command, as spec/opcode_table.json and the assembler syntax spell it (30 R75, R83). -/
def Instr.mnemonic : Instr → String
  | .fsub => "FSUB" | .encb => "ENCB" | .isone => "ISONE"
  | .notGate => "NOT" | .orGate => "OR" | .andGate => "AND" | .xorGate => "XOR" | .fa => "FA"
  | .enc8 => "ENC.8" | .enc23 => "ENC.23" | .enc24 => "ENC.24" | .enc32 => "ENC.32"
  | .dec8 => "DEC.8" | .dec23 => "DEC.23" | .dec24 => "DEC.24" | .dec32 => "DEC.32"
  | .add8 => "ADD.8" | .add23 => "ADD.23" | .add24 => "ADD.24" | .add32 => "ADD.32"
  | .shr8 => "SHR.8" | .shr23 => "SHR.23" | .shr24 => "SHR.24" | .shr32 => "SHR.32"
  | .funpack => "FUNPACK" | .fpack => "FPACK" | .faddss => "FADDSS"

end Sys2Proof
end

