-- ==== Sys2Proof/WellFormed.lean ====
section
/-! DEFINITION. When the fields of a command byte name a command: RSV is clear, OP is one of the fifteen operations, and
WSEL is 0b00 unless the operation is width-parameterised (spec 30 R74, R76, R77). -/

namespace Sys2Proof

/-- RSV must be 0 (30 R76). -/
def CmdFields.rsvClear (f : CmdFields) : Bool := f.rsv == 0#1

/-- OP values 0x01 to 0x0F select operations (30 R74). -/
def CmdFields.opDefined (f : CmdFields) : Bool := 1 ≤ f.op.toNat && f.op.toNat ≤ 15

/-- ENC, DEC, ADD and SHR are width-parameterised: OP 0x09 to 0x0C (30 R73, R74). -/
def CmdFields.widthParameterised (f : CmdFields) : Bool := 9 ≤ f.op.toNat && f.op.toNat ≤ 12

/-- WSEL is 0b00 unless the operation is width-parameterised (30 R77). -/
def CmdFields.widthSelectAllowed (f : CmdFields) : Bool := f.widthParameterised || f.wsel == 0#2

/-- The fields are those of one of the 27 legal bytes (30 R75, R77). -/
def CmdFields.wellFormed (f : CmdFields) : Bool := f.rsvClear && f.opDefined && f.widthSelectAllowed

/-- Every command is well formed: the command byte carries no operand values to check (30 R72). The checks a byte can
fail are those of `CmdFields.wellFormed`. -/
def Instr.wellFormed (_ : Instr) : Bool := true

end Sys2Proof
end

