-- ==== Sys2Proof/Decode.lean ====
section
/-! DEFINITION. Decoding, total over all 256 command bytes, and the encoder (spec 30 R70 to R78). -/

namespace Sys2Proof

/-- The fields OP = CMD[7:3], RSV = CMD[2], WSEL = CMD[1:0] (30 R71). -/
def fieldsOf (cmd : CmdByte) : CmdFields :=
  { op := cmd.extractLsb' 3 5, rsv := cmd.extractLsb' 2 1, wsel := cmd.extractLsb' 0 2 }

/-- The width WSEL selects (30 R73). -/
def widthOf (wsel : BitVec 2) : Width :=
  match wsel.toNat with
  | 0 => .w8
  | 1 => .w23
  | 2 => .w24
  | _ => .w32

/-- The operation of a width-parameterised OP (30 R74). -/
def widthOperation (op : BitVec 5) (n : Width) : Option Instr :=
  match op.toNat with
  | 0x09 => some (.encOf n)
  | 0x0A => some (.decOf n)
  | 0x0B => some (.addOf n)
  | 0x0C => some (.shrOf n)
  | _ => none

/-- The operation of an OP that is not width-parameterised (30 R74). -/
def plainOperation (op : BitVec 5) : Option Instr :=
  match op.toNat with
  | 0x01 => some .fsub
  | 0x02 => some .encb
  | 0x03 => some .isone
  | 0x04 => some .notGate
  | 0x05 => some .orGate
  | 0x06 => some .andGate
  | 0x07 => some .xorGate
  | 0x08 => some .fa
  | 0x0D => some .funpack
  | 0x0E => some .fpack
  | 0x0F => some .faddss
  | _ => none

/-- The operation that fields name, or why they are illegal, in the order of the checks of 30 R78. -/
def decodeFields (f : CmdFields) : Except DecodeError Instr :=
  if f.rsv ≠ 0#1 then .error .reservedBitSet
  else
    match widthOperation f.op (widthOf f.wsel) with
    | some i => .ok i
    | none =>
      match plainOperation f.op with
      | some i => if f.wsel ≠ 0#2 then .error (.widthSelectNotZero f.op f.wsel) else .ok i
      | none => .error (.reservedOp f.op)

/-- Decoding a command byte: total, and every byte that is not legal is rejected by name (30 R78). -/
def decode (cmd : CmdByte) : Except DecodeError Instr := decodeFields (fieldsOf cmd)

/-- The OP value of a command (30 R74). -/
def opOf : Instr → BitVec 5
  | .fsub => 0x01 | .encb => 0x02 | .isone => 0x03
  | .notGate => 0x04 | .orGate => 0x05 | .andGate => 0x06 | .xorGate => 0x07 | .fa => 0x08
  | .enc8 | .enc23 | .enc24 | .enc32 => 0x09
  | .dec8 | .dec23 | .dec24 | .dec32 => 0x0A
  | .add8 | .add23 | .add24 | .add32 => 0x0B
  | .shr8 | .shr23 | .shr24 | .shr32 => 0x0C
  | .funpack => 0x0D | .fpack => 0x0E | .faddss => 0x0F

/-- The WSEL value of a command: 0b00 where the operation has no width (30 R73, R77). -/
def wselOf : Instr → BitVec 2
  | .enc23 | .dec23 | .add23 | .shr23 => 1
  | .enc24 | .dec24 | .add24 | .shr24 => 2
  | .enc32 | .dec32 | .add32 | .shr32 => 3
  | .enc8 | .dec8 | .add8 | .shr8
  | .fsub | .encb | .isone | .notGate | .orGate | .andGate | .xorGate | .fa
  | .funpack | .fpack | .faddss => 0

/-- The command byte of a command: OP, then RSV = 0, then WSEL (30 R71). -/
def encode (i : Instr) : CmdByte := opOf i ++ 0#1 ++ wselOf i

/-- The command the decoder reads from a row of the opcode table. A command is exactly 8 bits (30 R70), so another
width, or a number that does not fit in a byte, is no command. Log entry 18. -/
def decodeTableWord (nbits w : Nat) : Option Instr :=
  if nbits = 8 ∧ w < 256 then (decode (BitVec.ofNat 8 w)).toOption else none

end Sys2Proof
end

