-- ==== Sys2Proof/Machine/State.lean ====
section
/-! DEFINITION. The state of the model: the ports of the block (spec 30 R80) and whether reset is asserted. The block
keeps no state of its own (10 R30): a command reads the ports in and drives the ports out (10 R37). -/

namespace Sys2Proof.Machine

/-- The completion status of a command (60 R200). Its 2-bit code is `statusCode`. -/
inductive Status where
  | ok
  | illegalCommand
  | domainViolation
  | unsupportedOperand
  deriving DecidableEq, Repr

/-- The operand ports made of Bit lanes (30 R80). -/
inductive LanePort where
  | aBits
  | bBits
  | cBit
  deriving DecidableEq, Repr

/-- A place a result can be read from: a lane of R_BITS, or one of the other result ports (30 R80). -/
inductive ResultPort where
  | rBits (lane : Fin 32)
  | rCo
  | rWord
  | rBool
  | status
  deriving DecidableEq, Repr

/-- The operand ports (30 R80). The host writes them; no command changes one. -/
structure InPorts where
  /-- A_BITS[0..31] -/
  aBits : Vector Word 32
  /-- B_BITS[0..31] -/
  bBits : Vector Word 32
  /-- C_BIT -/
  cBit  : Word
  /-- A_WORD -/
  aWord : Word
  /-- A_BOOL: 1 = true, 0 = false -/
  aBool : BitVec 1
  deriving DecidableEq, Repr

/-- The result ports (30 R80). A port that a command does not drive holds no value, `none` (10 R37). -/
structure Results where
  /-- R_BITS[0..31] -/
  rBits  : Vector (Option Word) 32
  /-- R_CO -/
  rCo    : Option Word
  /-- R_WORD -/
  rWord  : Option Word
  /-- R_BOOL: 1 = true, 0 = false -/
  rBool  : Option (BitVec 1)
  /-- STATUS -/
  status : Option Status
  deriving DecidableEq, Repr

/-- What the host presents as one transaction: the command byte and the operand ports (30 R72). -/
structure Transaction where
  cmd : CmdByte
  inp : InPorts
  deriving DecidableEq, Repr

/-- A lane that failed `check_lane`: the diagnostic `(port, i, w)` of 40 R102. -/
structure BadLane where
  port : LanePort
  lane : Nat
  word : Word
  deriving DecidableEq, Repr

/-- The machine: its ports, and whether reset is asserted. -/
structure State where
  /-- reset is asserted (70 R230). Log entry 6. -/
  inReset : Bool
  /-- CMD, or nothing presented (30 R72, 10 R38). Log entry 3. -/
  cmd     : Option CmdByte
  /-- the operand ports -/
  inp     : InPorts
  /-- the result ports -/
  out     : Results
  deriving DecidableEq, Repr

/-- How the model stops. A fault that stands for a STATUS carries the result record the block gives: STATUS driven and
no other result port (60 R201); the host goes on from it by `Sys2Proof.Machine.afterAnswer` (60 R207). -/
inductive Fault where
  /-- ILLEGAL_COMMAND, raised by the step when the byte on CMD is not legal (30 R77, 60 R202, R215). Safe, but for what
  60 R215 says: see log entry 4. -/
  | illegalCommand (cmd : CmdByte) (why : DecodeError) (record : Results)
  /-- DOMAIN_VIOLATION, raised by the meaning of a command that reads a lane holding no domain pattern; it names the
  command and the first bad lane (40 R102, 60 R204, R215). Safe, but for what 60 R215 says: see log entry 4. -/
  | domainViolation (command : Instr) (bad : BadLane) (record : Results)
  /-- Raised by the step when a command is presented while reset is asserted: stuck, since the spec gives it no step
  (70 R230, 93 U10). Safe (log entry 6). What the host goes on from, and what becomes of the byte when reset is released, are
the model's choices: log entries 21 and 20. -/
  | commandDuringReset (cmd : CmdByte)
  /-- Raised by the host's read of a result port that holds no value, never by a step (10 R37). Safe. -/
  | undrivenPort (port : ResultPort)
  deriving DecidableEq, Repr

/-- Why a command has no meaning in the model. -/
inductive Refusal where
  /-- Raised by `exec` for a command the model gives no meaning yet; no arm raises it. Safe. -/
  | notModelled (mnemonic : String)
  deriving DecidableEq, Repr

/-- Every result port holds no value (10 R38). -/
def noValue : Results :=
  { rBits := Vector.replicate 32 none, rCo := none, rWord := none, rBool := none, status := none }

/-- The operand ports right after reset, before the host drives them: the spec gives them no value. DESIGN CHOICE,
log entry 3. -/
def undrivenInputs : InPorts :=
  { aBits := Vector.replicate 32 0, bBits := Vector.replicate 32 0, cBit := 0, aWord := 0, aBool := 0 }

/-- The machine right after reset: no command presented, every result port without a value (10 R38, 70 R230). -/
def State.reset : State :=
  { inReset := false, cmd := none, inp := undrivenInputs, out := noValue }

end Sys2Proof.Machine
end

