-- ==== Sys2Proof/Machine/Flags.lean ====
section
/-! DEFINITION. The block keeps no flags; the two flag-like results of a command are the carry-out Bit and the STATUS
code (spec 10 R32, 60 R200). -/

namespace Sys2Proof.Machine

/-- The 2-bit code of STATUS (60 R200). -/
def statusCode : Status → BitVec 2
  | .ok => 0b00
  | .illegalCommand => 0b01
  | .domainViolation => 0b10
  | .unsupportedOperand => 0b11

/-- What R_CO holds when a command drives a carry-out Bit (10 R32, 41 R128, 42 R144). -/
def carryPort (c : Bit) : Option Word := some (pat c)

end Sys2Proof.Machine
end

