-- ==== Sys2Proof/Machine/Gates.lean ====
section
/-! DEFINITION. The gate layer on Bits, each gate composed from FSUB as the spec defines it (spec 41 R120 to R131). -/

namespace Sys2Proof.Machine

/-- `not(x) := fsub(ZERO, x)` (41 R120). -/
def gateNot (x : Bit) : Bit := fsub .zero x

/-- `or(a, b) := fsub(a, not(b))` (41 R122). -/
def gateOr (a b : Bit) : Bit := fsub a (gateNot b)

/-- `and(a, b) := not(or(not(a), not(b)))` (41 R124). -/
def gateAnd (a b : Bit) : Bit := gateNot (gateOr (gateNot a) (gateNot b))

/-- `xor(a, b) := or(and(not(a), b), and(a, not(b)))` (41 R126). -/
def gateXor (a b : Bit) : Bit := gateOr (gateAnd (gateNot a) b) (gateAnd a (gateNot b))

/-- `full_adder(a, b, c)`: the sum and the carry out (41 R128). -/
def fullAdder (a b c : Bit) : Bit × Bit :=
  let t := gateXor a b
  (gateXor t c, gateOr (gateAnd t c) (gateAnd a b))

end Sys2Proof.Machine
end

