-- ==== Sys2Proof/Machine/SoftInteger.lean ====
section
/-! DEFINITION. The soft-integer functions, generic in the width: a SoftUint<N> is the list of its N Bits, lane 0 first
(spec 00 R7, R13; 42 R140 to R151). -/

namespace Sys2Proof.Machine

/-- `num(v)`: the unsigned number a SoftUint stands for, lane 0 the least significant (42, notation). -/
def num : List Bit → Nat
  | [] => 0
  | b :: bs => val b + 2 * num bs

/-- `encode_N(x)`: lane i is ONE iff bit i of x is 1; lanes at or beyond the source width are ZERO (42 R140). -/
def encodeN (srcw n x : Nat) : List Bit :=
  (List.range n).map fun i => bitof (decide (i < srcw) && (x >>> i &&& 1 != 0))

/-- The sum of `1 << i` over the lanes that hold ONE, the first lane of the list having index i. -/
def decodeFrom : Nat → List Bit → Nat
  | _, [] => 0
  | i, b :: bs => (if val b = 1 then 1 <<< i else 0) + decodeFrom (i + 1) bs

/-- `decode_N(a)`: the sum of `1 << i` for every lane i that holds ONE (42 R142). -/
def decodeN (a : List Bit) : Nat := decodeFrom 0 a

/-- The ripple from a given carry-in: each lane's full adder takes the carry out of the lane before it (42 R144, R147). -/
def rippleAdd : Bit → List Bit → List Bit → List Bit × Bit
  | c, a :: as, b :: bs =>
    let lane := fullAdder a b c
    let rest := rippleAdd lane.2 as bs
    (lane.1 :: rest.1, rest.2)
  | c, _, _ => ([], c)

/-- `add_N(a, b)`: the N-bit sum and the final carry out; the initial carry-in is ZERO (42 R144, R146). -/
def addN (a b : List Bit) : List Bit × Bit := rippleAdd .zero a b

/-- `shift_right_N(x)`: one position right; ZERO enters at lane N-1 and lane 0 is discarded (42 R148). -/
def shiftRight : List Bit → List Bit
  | [] => []
  | _ :: xs => xs ++ [.zero]

/-- `shift_right_N^k(x)`: k one-position shifts (43, notation). -/
def shiftRightBy : Nat → List Bit → List Bit
  | 0, x => x
  | k + 1, x => shiftRightBy k (shiftRight x)

end Sys2Proof.Machine
end

