-- ==== Sys2Proof/Machine/SofterFloat.lean ====
section
/-! DEFINITION. The softer-float functions: bus layout, unpack, pack and same-sign addition (spec 43 R170 to R190). -/

namespace Sys2Proof.Machine

/-- The record of 43 R170: a sign Bit, a SoftUint<8> exponent and a SoftUint<23> fraction. -/
structure SofterFloat where
  sign     : Bit
  exponent : List Bit
  fraction : List Bit
  deriving DecidableEq, Repr

/-- `sf(L)`: the record on 32 lanes: fraction 0..22, exponent 23..30, sign 31 (43 R170). -/
def ofLanes (l : List Bit) : SofterFloat :=
  { fraction := l.take 23, exponent := (l.drop 23).take 8, sign := l.getD 31 .zero }

/-- `lanes(s)`: the record's lanes, lane 0 first (43 R170). -/
def toLanes (s : SofterFloat) : List Bit := s.fraction ++ s.exponent ++ [s.sign]

/-- `funpack(w)`: a field copy with no implicit-bit adjustment; a float sign bit of 1 is the Bit ZERO (43 R171, R173,
R175, R176). -/
def funpack (w : Word) : SofterFloat :=
  { sign := bitof (w.getLsbD 31 == false)
    exponent := encodeN Config.srcw 8 (w.extractLsb' 23 8).toNat
    fraction := encodeN Config.srcw 23 (w.extractLsb' 0 23).toNat }

/-- The float's sign bit: 1 iff the sign Bit is ZERO (43 R173). -/
def floatSignBit : Bit → BitVec 1
  | .zero => 1
  | .one => 0

/-- `fpack(s)`: the sign bit, the exponent field, the fraction field (43 R177). -/
def fpack (s : SofterFloat) : Word :=
  floatSignBit s.sign ++ BitVec.ofNat 8 (decodeN s.exponent) ++ BitVec.ofNat 23 (decodeN s.fraction)

/-- Step 1: the 24-lane significand; lane 23 is ONE iff the exponent is not zero (43 R182). -/
def significand (s : SofterFloat) : List Bit := s.fraction ++ [bitof (decodeN s.exponent != 0)]

/-- Step 2: both significands with the one of the smaller exponent shifted right by the difference, and the working
exponent (43 R183). -/
def align (a b : SofterFloat) : List Bit × List Bit × Nat :=
  let ea := decodeN a.exponent
  let eb := decodeN b.exponent
  if ea < eb then (shiftRightBy (eb - ea) (significand a), significand b, eb)
  else if eb < ea then (significand a, shiftRightBy (ea - eb) (significand b), ea)
  else (significand a, significand b, ea)

/-- Steps 3 and 4: the 24-lane sum, shifted right once with the exponent incremented if the carry is ONE (43 R184,
R185). -/
def addAligned (sa sb : List Bit) (e : Nat) : List Bit × Nat :=
  let sum := addN sa sb
  if val sum.2 = 1 then (shiftRight sum.1, e + 1) else (sum.1, e)

/-- `add_same_sign(a, b)` by the five steps; step 5 drops lane 23 and re-encodes the exponent, which wraps from 256 to
0 (43 R180, R186). -/
def addSameSign (a b : SofterFloat) : SofterFloat :=
  let aligned := align a b
  let sum := addAligned aligned.1 aligned.2.1 aligned.2.2
  { sign := a.sign, exponent := encodeN Config.srcw 8 sum.2, fraction := sum.1.take 23 }

/-- The cases of 43 R189 and 92 D13: a zero, subnormal or exponent-255 operand, or a working exponent that reaches 255
or more. DEDUCED reading of "exactly these cases": log entry 8. -/
def unhandledFadd (a b : SofterFloat) : Bool :=
  let aligned := align a b
  let extreme (s : SofterFloat) : Bool := decodeN s.exponent == 0 || decodeN s.exponent == 255
  extreme a || extreme b || decide (255 ≤ (addAligned aligned.1 aligned.2.1 aligned.2.2).2)

/-- The result lanes of FADDSS under a policy: the value of the five steps, or, under `anyValue` in an unhandled case, a
free draw (43 R189). -/
def faddLanes (policy : FaddPolicy) (a b : SofterFloat) : List Bit :=
  match policy with
  | .ruleValue => toLanes (addSameSign a b)
  | .anyValue =>
    if unhandledFadd a b then encodeN Config.srcw 32 (Config.unhandledFaddDraw (fpack a) (fpack b)).toNat
    else toLanes (addSameSign a b)

end Sys2Proof.Machine
end

