-- ==== Sys2Proof/Machine/Operands.lean ====
section
/-! DEFINITION. The operand forms: lanes with their domain check, soft integers, softer floats, the native word and the
boolean (spec 30 R79 to R82, 40 R102), and the port use of each command (30 R81). -/

namespace Sys2Proof.Machine

/-- `check_lane(port, i, w)` and then the Bit the lane carries (40 R101, R102). -/
def readLane (port : LanePort) (lane : Nat) (w : Word) : Except BadLane Bit :=
  if inDomain w then .ok (classify w) else .error { port := port, lane := lane, word := w }

/-- Lanes in ascending order from a first index: the first bad lane, or every Bit (60 R206). -/
def readLanes (port : LanePort) : Nat → List Word → Except BadLane (List Bit)
  | _, [] => .ok []
  | lane, w :: ws =>
    match readLane port lane w with
    | .error bad => .error bad
    | .ok b =>
      match readLanes port (lane + 1) ws with
      | .error bad => .error bad
      | .ok bs => .ok (b :: bs)

/-- The Bit operand a: lane 0 of A_BITS (30 R80). -/
def bitOperandA (s : State) : Except BadLane Bit := readLane .aBits 0 s.inp.aBits[0]

/-- The Bit operand b: lane 0 of B_BITS (30 R80). -/
def bitOperandB (s : State) : Except BadLane Bit := readLane .bBits 0 s.inp.bBits[0]

/-- The carry-in Bit of FA: C_BIT (30 R80). -/
def carryOperand (s : State) : Except BadLane Bit := readLane .cBit 0 s.inp.cBit

/-- The SoftUint<N> operand a: lanes 0..N-1 of A_BITS; the other lanes are ignored (30 R81, R82). -/
def softOperandA (n : Nat) (s : State) : Except BadLane (List Bit) := readLanes .aBits 0 (s.inp.aBits.toList.take n)

/-- The SoftUint<N> operand b: lanes 0..N-1 of B_BITS (30 R81, R82). -/
def softOperandB (n : Nat) (s : State) : Except BadLane (List Bit) := readLanes .bBits 0 (s.inp.bBits.toList.take n)

/-- The SofterFloat operand a: all 32 lanes of A_BITS (30 R80, 43 R170). -/
def floatOperandA (s : State) : Except BadLane SofterFloat := (softOperandA 32 s).map ofLanes

/-- The SofterFloat operand b: all 32 lanes of B_BITS (30 R80, 43 R170). -/
def floatOperandB (s : State) : Except BadLane SofterFloat := (softOperandB 32 s).map ofLanes

/-- The native word operand, used with no extension, scaling or shifting (30 R82). -/
def wordOperand (s : State) : Word := s.inp.aWord

/-- The boolean operand (30 R82). -/
def boolOperand (s : State) : BitVec 1 := s.inp.aBool

/-- One lane of an operand port. -/
abbrev LaneRef := LanePort × Nat

/-- Lanes 0..n-1 of a port. -/
def laneRange (port : LanePort) (n : Nat) : List LaneRef := (List.range n).map fun i => (port, i)

/-- The lanes a command reads, in the order their checks are made (30 R81, 60 R206). -/
def lanesRead : Instr → List LaneRef
  | .fsub | .orGate | .andGate | .xorGate => laneRange .aBits 1 ++ laneRange .bBits 1
  | .isone | .notGate => laneRange .aBits 1
  | .fa => laneRange .aBits 1 ++ laneRange .bBits 1 ++ laneRange .cBit 1
  | .dec8 | .shr8 => laneRange .aBits 8
  | .dec23 | .shr23 => laneRange .aBits 23
  | .dec24 | .shr24 => laneRange .aBits 24
  | .dec32 | .shr32 | .fpack => laneRange .aBits 32
  | .add8 => laneRange .aBits 8 ++ laneRange .bBits 8
  | .add23 => laneRange .aBits 23 ++ laneRange .bBits 23
  | .add24 => laneRange .aBits 24 ++ laneRange .bBits 24
  | .add32 | .faddss => laneRange .aBits 32 ++ laneRange .bBits 32
  | .encb | .enc8 | .enc23 | .enc24 | .enc32 | .funpack => []

/-- Whether a command reads A_WORD (30 R81). -/
def readsWord : Instr → Bool
  | .enc8 | .enc23 | .enc24 | .enc32 | .funpack => true
  | .fsub | .encb | .isone | .notGate | .orGate | .andGate | .xorGate | .fa
  | .dec8 | .dec23 | .dec24 | .dec32 | .add8 | .add23 | .add24 | .add32
  | .shr8 | .shr23 | .shr24 | .shr32 | .fpack | .faddss => false

/-- Whether a command reads A_BOOL (30 R81). -/
def readsBool : Instr → Bool
  | .encb => true
  | .fsub | .isone | .notGate | .orGate | .andGate | .xorGate | .fa
  | .enc8 | .enc23 | .enc24 | .enc32 | .dec8 | .dec23 | .dec24 | .dec32
  | .add8 | .add23 | .add24 | .add32 | .shr8 | .shr23 | .shr24 | .shr32
  | .funpack | .fpack | .faddss => false

/-- How many lanes of R_BITS a command drives when STATUS = OK (30 R81). -/
def lanesDriven : Instr → Nat
  | .fsub | .encb | .notGate | .orGate | .andGate | .xorGate | .fa => 1
  | .enc8 | .add8 | .shr8 => 8
  | .enc23 | .add23 | .shr23 => 23
  | .enc24 | .add24 | .shr24 => 24
  | .enc32 | .add32 | .shr32 | .funpack | .faddss => 32
  | .isone | .dec8 | .dec23 | .dec24 | .dec32 | .fpack => 0

/-- Whether a command drives R_CO when STATUS = OK (30 R81). -/
def drivesCarry : Instr → Bool
  | .fa | .add8 | .add23 | .add24 | .add32 => true
  | .fsub | .encb | .isone | .notGate | .orGate | .andGate | .xorGate
  | .enc8 | .enc23 | .enc24 | .enc32 | .dec8 | .dec23 | .dec24 | .dec32
  | .shr8 | .shr23 | .shr24 | .shr32 | .funpack | .fpack | .faddss => false

/-- Whether a command drives R_WORD when STATUS = OK (30 R81). -/
def drivesWord : Instr → Bool
  | .dec8 | .dec23 | .dec24 | .dec32 | .fpack => true
  | .fsub | .encb | .isone | .notGate | .orGate | .andGate | .xorGate | .fa
  | .enc8 | .enc23 | .enc24 | .enc32 | .add8 | .add23 | .add24 | .add32
  | .shr8 | .shr23 | .shr24 | .shr32 | .funpack | .faddss => false

/-- Whether a command drives R_BOOL when STATUS = OK (30 R81). -/
def drivesBool : Instr → Bool
  | .isone => true
  | .fsub | .encb | .notGate | .orGate | .andGate | .xorGate | .fa
  | .enc8 | .enc23 | .enc24 | .enc32 | .dec8 | .dec23 | .dec24 | .dec32
  | .add8 | .add23 | .add24 | .add32 | .shr8 | .shr23 | .shr24 | .shr32
  | .funpack | .fpack | .faddss => false

/-- The word on a lane of the operand ports (30 R80). C_BIT is one lane. -/
def laneWord (p : InPorts) : LaneRef → Word
  | (.aBits, i) => p.aBits.toList.getD i 0
  | (.bBits, i) => p.bBits.toList.getD i 0
  | (.cBit, _) => p.cBit

/-- The first lane, in a given order, that holds no domain pattern (60 R206). -/
def firstBadLane (p : InPorts) : List LaneRef → Option BadLane
  | [] => none
  | r :: rs => if inDomain (laneWord p r) then firstBadLane p rs else some { port := r.1, lane := r.2, word := laneWord p r }

end Sys2Proof.Machine
end

