-- ==== Sys2Proof/Machine/Ops.lean ====
section
/-! DEFINITION. The named operations on the ports: driving results, raising a STATUS, completing a command, the host's
presentation and reads, and reset (spec 10 R37, R38; 60 R200 to R215; 70 R230). -/

namespace Sys2Proof.Machine

/-- The state with its result ports replaced: the one way a command changes the state (10 R37, 20 R54). -/
def State.withResults (s : State) (r : Results) : State := { s with out := r }

/-- Words on lanes 0, 1, … of R_BITS; the other lanes hold no value (30 R81). -/
def laneVector (ws : List Word) : Vector (Option Word) 32 := Vector.ofFn fun i => ws[i.val]?

/-- `raise S`: STATUS is S and no other result port holds a value (00 R15, 60 R201). This is the whole of taking an
error in the block: nothing is saved, no mode changes, no control is transferred and nothing is returned from (60 R207,
R208). -/
def raised (st : Status) : Results := { noValue with status := some st }

/-- STATUS = OK and Bits on lanes 0, 1, … of R_BITS. -/
def driveBits (bs : List Bit) : Results := { noValue with rBits := laneVector (bs.map pat), status := some .ok }

/-- STATUS = OK, Bits on lanes 0, 1, … of R_BITS and a carry-out Bit on R_CO. -/
def driveBitsAndCarry (bs : List Bit) (c : Bit) : Results := { driveBits bs with rCo := carryPort c }

/-- STATUS = OK and a word on R_WORD. -/
def driveWord (w : Word) : Results := { noValue with rWord := some w, status := some .ok }

/-- STATUS = OK and a boolean on R_BOOL. -/
def driveBool (b : BitVec 1) : Results := { noValue with rBool := some b, status := some .ok }

/-- The end of a command: its results are driven together, or its first bad lane is reported (20 R54, 60 R204, R215). -/
def complete (command : Instr) (s : State) (r : Except BadLane Results) : Host.Outcome State Fault Refusal :=
  match r with
  | .ok results => .next (s.withResults results)
  | .error bad => .fault (.domainViolation command bad (raised .domainViolation))

/-- The outcome of a byte that decodes to no command (30 R77, 60 R202, R215). -/
def illegal (cmd : CmdByte) (why : DecodeError) : Host.Outcome State Fault Refusal :=
  .fault (.illegalCommand cmd why (raised .illegalCommand))

/-- The host presents a command byte and operand ports together (30 R72, 60 R214). The result ports keep the record of the
earlier command until this one is answered or reset is asserted: the spec does not say how long a result port keeps its
value. DESIGN CHOICE, unsafe: log entry 19. -/
def State.present (s : State) (t : Transaction) : State := { s with cmd := some t.cmd, inp := t.inp }

/-- Reset is asserted: the result ports hold no value, and nothing else is initialised (70 R230). -/
def State.assertReset (s : State) : State := { s with inReset := true, out := noValue }

/-- Reset is released (70 R230). A byte that was presented during reset, or held on CMD through it, is still on CMD and runs
as an ordinary command in the next step: the spec gives such a command no defined outcome and does not say what becomes of
it. DESIGN CHOICE, unsafe: log entry 20. -/
def State.releaseReset (s : State) : State := { s with inReset := false }

/-- A value that is there, or the reader's fault (10 R37). -/
def orUndriven {α : Type} (port : ResultPort) : Option α → Except Fault α
  | some v => .ok v
  | none => .error (.undrivenPort port)

/-- What the host reads from a result port, as a number in the port's width: a port that holds no value is the reader's
fault, and is never read as zero or as an earlier value (10 R37, 60 R214). -/
def hostRead (s : State) : ResultPort → Except Fault Nat
  | .rBits lane => (orUndriven (.rBits lane) s.out.rBits[lane]).map BitVec.toNat
  | .rCo => (orUndriven .rCo s.out.rCo).map BitVec.toNat
  | .rWord => (orUndriven .rWord s.out.rWord).map BitVec.toNat
  | .rBool => (orUndriven .rBool s.out.rBool).map BitVec.toNat
  | .status => (orUndriven .status s.out.status).map fun st => (statusCode st).toNat

end Sys2Proof.Machine
end

