-- ==== Sys2Proof/Machine/BitCommands.lean ====
section
/-! DEFINITION. The meanings of FSUB, ENCB and ISONE (spec 40 R103, R105, R106). -/

namespace Sys2Proof.Machine

/-- FSUB: `a - b` on the two patterns of zero (40 R103). -/
def execFsub (s : State) : Host.Outcome State Fault Refusal :=
  complete .fsub s do
    let a ← bitOperandA s
    let b ← bitOperandB s
    return driveBits [fsub a b]

/-- ENCB: 1 gives ONE and 0 gives ZERO; no lane is read (40 R105, 60 R204). -/
def execEncb (s : State) : Host.Outcome State Fault Refusal :=
  complete .encb s (.ok (driveBits [encodeBool (boolOperand s)]))

/-- ISONE: 1 iff the sign bit of the lane is 0, after the domain check (40 R106). -/
def execIsone (s : State) : Host.Outcome State Fault Refusal :=
  complete .isone s do
    let _ ← bitOperandA s
    return driveBool (isOneWord s.inp.aBits[0])

end Sys2Proof.Machine
end

