-- ==== Sys2Proof/Machine/FloatCommands.lean ====
section
/-! DEFINITION. The meanings of FUNPACK, FPACK and FADDSS (spec 43 R175, R177, R180 to R189). -/

namespace Sys2Proof.Machine

/-- FUNPACK: every 32-bit pattern is accepted, and none is canonicalised (43 R175). -/
def execFunpack (s : State) : Host.Outcome State Fault Refusal :=
  complete .funpack s (.ok (driveBits (toLanes (funpack (wordOperand s)))))

/-- FPACK (43 R177). -/
def execFpack (s : State) : Host.Outcome State Fault Refusal :=
  complete .fpack s do
    let x ← floatOperandA s
    return driveWord (fpack x)

/-- What FADDSS drives for two operands in the domain: UNSUPPORTED_OPERAND if the sign Bits differ, and else the sum's
lanes; no carry is driven (43 R180, R181, 60 R203). -/
def faddResults (policy : FaddPolicy) (a b : SofterFloat) : Results :=
  if val a.sign ≠ val b.sign then raised .unsupportedOperand else driveBits (faddLanes policy a b)

/-- FADDSS: the domain checks come before the sign check (43 R180, 60 R206). UNSUPPORTED_OPERAND is the error outcome of
60 R215, a next state with no result lane. -/
def execFaddss (s : State) : Host.Outcome State Fault Refusal :=
  complete .faddss s do
    let a ← floatOperandA s
    let b ← floatOperandB s
    return faddResults Config.unhandledFaddPolicy a b

end Sys2Proof.Machine
end

