-- ==== Sys2Proof/Machine/GateCommands.lean ====
section
/-! DEFINITION. The meanings of NOT, OR, AND, XOR and FA (spec 41 R120 to R129). -/

namespace Sys2Proof.Machine

/-- A gate of two Bits: operands a and b, one result lane (41 R122, R124, R126). -/
def binaryGate (command : Instr) (gate : Bit → Bit → Bit) (s : State) : Host.Outcome State Fault Refusal :=
  complete command s do
    let a ← bitOperandA s
    let b ← bitOperandB s
    return driveBits [gate a b]

/-- NOT; B_BITS is not read (41 R120). -/
def execNot (s : State) : Host.Outcome State Fault Refusal :=
  complete .notGate s do
    let x ← bitOperandA s
    return driveBits [gateNot x]

/-- OR (41 R122). -/
def execOr (s : State) : Host.Outcome State Fault Refusal := binaryGate .orGate gateOr s

/-- AND (41 R124). -/
def execAnd (s : State) : Host.Outcome State Fault Refusal := binaryGate .andGate gateAnd s

/-- XOR (41 R126). -/
def execXor (s : State) : Host.Outcome State Fault Refusal := binaryGate .xorGate gateXor s

/-- FA: the sum on R_BITS[0] and the carry out on R_CO; lanes are checked in the order a, b, c_in (41 R128). -/
def execFa (s : State) : Host.Outcome State Fault Refusal :=
  complete .fa s do
    let a ← bitOperandA s
    let b ← bitOperandB s
    let c ← carryOperand s
    return driveBitsAndCarry [(fullAdder a b c).1] (fullAdder a b c).2

end Sys2Proof.Machine
end

