-- ==== Sys2Proof/Machine/IntegerCommands.lean ====
section
/-! DEFINITION. The meanings of ENC.N, DEC.N, ADD.N and SHR.N at N = 8, 23, 24 and 32: one generic meaning for each
operation, the same at every width (spec 42 R140, R142, R144, R148, R151). -/

namespace Sys2Proof.Machine

/-- ENC.N: no lane is read and no word is invalid; a wide value is truncated silently (42 R140, R141). -/
def encodeCommand (command : Instr) (n : Nat) (s : State) : Host.Outcome State Fault Refusal :=
  complete command s (.ok (driveBits (encodeN Config.srcw n (wordOperand s).toNat)))

/-- DEC.N: the number of the lanes, zero-extended to the native width (42 R142, 00 R9). -/
def decodeCommand (command : Instr) (n : Nat) (s : State) : Host.Outcome State Fault Refusal :=
  complete command s do
    let a ← softOperandA n s
    return driveWord ((BitVec.ofNat Config.dstw (decodeN a)).setWidth 32)

/-- ADD.N: the sum on R_BITS[0..N-1] and the final carry on R_CO (42 R144). -/
def addCommand (command : Instr) (n : Nat) (s : State) : Host.Outcome State Fault Refusal :=
  complete command s do
    let a ← softOperandA n s
    let b ← softOperandB n s
    return driveBitsAndCarry (addN a b).1 (addN a b).2

/-- SHR.N: one position right; the discarded lane is not reported (42 R148). -/
def shiftCommand (command : Instr) (n : Nat) (s : State) : Host.Outcome State Fault Refusal :=
  complete command s do
    let x ← softOperandA n s
    return driveBits (shiftRight x)

/-- ENC.8 (42 R140). -/
def execEnc8 (s : State) : Host.Outcome State Fault Refusal := encodeCommand .enc8 8 s

/-- ENC.23 (42 R140). -/
def execEnc23 (s : State) : Host.Outcome State Fault Refusal := encodeCommand .enc23 23 s

/-- ENC.24 (42 R140). -/
def execEnc24 (s : State) : Host.Outcome State Fault Refusal := encodeCommand .enc24 24 s

/-- ENC.32 (42 R140). -/
def execEnc32 (s : State) : Host.Outcome State Fault Refusal := encodeCommand .enc32 32 s

/-- DEC.8 (42 R142). -/
def execDec8 (s : State) : Host.Outcome State Fault Refusal := decodeCommand .dec8 8 s

/-- DEC.23 (42 R142). -/
def execDec23 (s : State) : Host.Outcome State Fault Refusal := decodeCommand .dec23 23 s

/-- DEC.24 (42 R142). -/
def execDec24 (s : State) : Host.Outcome State Fault Refusal := decodeCommand .dec24 24 s

/-- DEC.32 (42 R142). -/
def execDec32 (s : State) : Host.Outcome State Fault Refusal := decodeCommand .dec32 32 s

/-- ADD.8 (42 R144). -/
def execAdd8 (s : State) : Host.Outcome State Fault Refusal := addCommand .add8 8 s

/-- ADD.23 (42 R144). -/
def execAdd23 (s : State) : Host.Outcome State Fault Refusal := addCommand .add23 23 s

/-- ADD.24 (42 R144). -/
def execAdd24 (s : State) : Host.Outcome State Fault Refusal := addCommand .add24 24 s

/-- ADD.32 (42 R144). -/
def execAdd32 (s : State) : Host.Outcome State Fault Refusal := addCommand .add32 32 s

/-- SHR.8 (42 R148). -/
def execShr8 (s : State) : Host.Outcome State Fault Refusal := shiftCommand .shr8 8 s

/-- SHR.23 (42 R148). -/
def execShr23 (s : State) : Host.Outcome State Fault Refusal := shiftCommand .shr23 23 s

/-- SHR.24 (42 R148). -/
def execShr24 (s : State) : Host.Outcome State Fault Refusal := shiftCommand .shr24 24 s

/-- SHR.32 (42 R148). -/
def execShr32 (s : State) : Host.Outcome State Fault Refusal := shiftCommand .shr32 32 s

end Sys2Proof.Machine
end

