-- ==== Sys2Proof/Machine/Dispatch.lean ====
section
/-! DEFINITION. The dispatch of commands to their meanings, one arm for each row of spec/opcode_table.json. -/

namespace Sys2Proof.Machine

def exec (i : Instr) (s : State) : Host.Outcome State Fault Refusal :=
  match i with
  | .fsub => Sys2Proof.Machine.execFsub s
  | .encb => Sys2Proof.Machine.execEncb s
  | .isone => Sys2Proof.Machine.execIsone s
  | .notGate => Sys2Proof.Machine.execNot s
  | .orGate => Sys2Proof.Machine.execOr s
  | .andGate => Sys2Proof.Machine.execAnd s
  | .xorGate => Sys2Proof.Machine.execXor s
  | .fa => Sys2Proof.Machine.execFa s
  | .enc8 => Sys2Proof.Machine.execEnc8 s
  | .enc23 => Sys2Proof.Machine.execEnc23 s
  | .enc24 => Sys2Proof.Machine.execEnc24 s
  | .enc32 => Sys2Proof.Machine.execEnc32 s
  | .dec8 => Sys2Proof.Machine.execDec8 s
  | .dec23 => Sys2Proof.Machine.execDec23 s
  | .dec24 => Sys2Proof.Machine.execDec24 s
  | .dec32 => Sys2Proof.Machine.execDec32 s
  | .add8 => Sys2Proof.Machine.execAdd8 s
  | .add23 => Sys2Proof.Machine.execAdd23 s
  | .add24 => Sys2Proof.Machine.execAdd24 s
  | .add32 => Sys2Proof.Machine.execAdd32 s
  | .shr8 => Sys2Proof.Machine.execShr8 s
  | .shr23 => Sys2Proof.Machine.execShr23 s
  | .shr24 => Sys2Proof.Machine.execShr24 s
  | .shr32 => Sys2Proof.Machine.execShr32 s
  | .funpack => Sys2Proof.Machine.execFunpack s
  | .fpack => Sys2Proof.Machine.execFpack s
  | .faddss => Sys2Proof.Machine.execFaddss s

end Sys2Proof.Machine
end

