-- ==== Sys2Proof/Machine/Step.lean ====
section
/-! DEFINITION. One step: one command, with its operands, is one atomic transaction (spec 20 R54, 92 D1). -/

namespace Sys2Proof.Machine

/-- A step. With no command presented nothing happens (log entry 2). A command presented during reset has no step
(70 R230). Otherwise the byte is decoded before any operand is read (60 R206): an illegal byte faults (60 R215), and a
legal one runs its command. The command byte and the operand ports stay as the host drives them (log entry 1). -/
def step (s : State) : Host.Outcome State Fault Refusal :=
  match s.cmd with
  | none => .next s
  | some cmd =>
    if s.inReset then .fault (.commandDuringReset cmd)
    else
      match decode cmd with
      | .error why => illegal cmd why
      | .ok i => exec i s

/-- The command byte `w` on CMD with reset released: the next step runs it on the operand ports as they are. A command
has 8 bits (30 R70), so `nbits` is not needed. Log entries 14 and 18. -/
def State.withFetchWord (s : State) (_nbits w : Nat) : State :=
  { s with inReset := false, cmd := some (BitVec.ofNat 8 w) }

end Sys2Proof.Machine
end

