-- ==== Sys2Proof/Machine/Session.lean ====
section
/-! DEFINITION. The host's side of the interface: what it gets for a command, the state it goes on from, and a sequence of
transactions (spec 20 R58; 60 R207, R208, R213, R214). -/

namespace Sys2Proof.Machine

/-- The result record the host gets from a step (10 R37): the next state's result ports, or the record a STATUS fault
carries (60 R201). A command during reset gives none. -/
def answered : Host.Outcome State Fault Refusal → Option Results
  | .next t => some t.out
  | .fault (.illegalCommand _ _ record) => some record
  | .fault (.domainViolation _ _ record) => some record
  | .fault (.commandDuringReset _) => none
  | .fault (.undrivenPort _) => none
  | .refused _ => none

/-- The state the host goes on from after a step of `s`: an error changes nothing but the result ports, and leaves the
block ready for the next command (60 R207, R208). After a command presented during reset, to which the spec gives no
outcome and no step (70 R230), the host goes on from the same ports in with no result port holding a value, still in
reset. DESIGN CHOICE, unsafe: log entry 21. -/
def afterAnswer (s : State) (o : Host.Outcome State Fault Refusal) : State :=
  match o with
  | .next t => t
  | .fault f => s.withResults ((answered (.fault f)).getD noValue)
  | .refused _ => s

/-- The host presents a transaction and the block makes one step: the record, and the state after (60 R214). -/
def serve (t : Transaction) (s : State) : Option Results × State :=
  (answered (step (s.present t)), afterAnswer (s.present t) (step (s.present t)))

/-- The records of a sequence of transactions, each presented after the one before it is answered, errors included
(20 R58, 60 R208). -/
def session : List Transaction → State → List (Option Results)
  | [], _ => []
  | t :: ts, s => (serve t s).1 :: session ts (serve t s).2

end Sys2Proof.Machine
end

