-- ==== Sys2Proof/Machine/Assembler.lean ====
section
/-! DEFINITION. The host's assembler: the command-list syntax of spec 30 R83 as abstract syntax, the placing of operands
on ports by 30 R81, and one line run by the host. The values a program names are the host's, not the block's (95, section
3). Log entry 11. -/

namespace Sys2Proof.Machine

/-- A value the host holds: lanes of R_BITS (or one R_CO lane), a native word, or a boolean. -/
inductive HostValue where
  | lanes (ws : List Word)
  | word (w : Word)
  | truth (b : BitVec 1)
  deriving DecidableEq, Repr

/-- An operand of a line (30 R83). -/
inductive AsmOperand where
  /-- '%'name -/
  | named (name : String)
  /-- '#'number -/
  | number (w : Word)
  /-- ZERO or ONE -/
  | bit (b : Bit)
  /-- true or false -/
  | truth (b : Bool)
  /-- '[' bit, … ']', lane 0 first -/
  | softLiteral (bs : List Bit)
  /-- '%'name'['lo..hi']': the host's move of some lanes of a value it holds, as in program P2 of 95 section 3 -/
  | slice (name : String) (lo hi : Nat)
  deriving DecidableEq, Repr

/-- A line: names for R_BITS (or R_WORD or R_BOOL) and then R_CO, a mnemonic, and operands (30 R83). -/
structure AsmLine where
  results  : List String
  command  : Instr
  operands : List AsmOperand
  deriving DecidableEq, Repr

/-- The values the host holds by name, the newest first. -/
abbrev HostEnv := List (String × HostValue)

/-- The value of an operand; a name that holds no value has none (10 R37). -/
def operandValue (env : HostEnv) : AsmOperand → Option HostValue
  | .named name => env.lookup name
  | .number w => some (.word w)
  | .bit b => some (.lanes [pat b])
  | .truth b => some (.truth (if b then 1 else 0))
  | .softLiteral bs => some (.lanes (bs.map pat))
  | .slice name lo hi =>
    match env.lookup name with
    | some (.lanes ws) => some (.lanes ((ws.drop lo).take (hi + 1 - lo)))
    | _ => none

/-- How many lanes of a port a command reads (30 R81). -/
def laneCount (command : Instr) (port : LanePort) : Nat :=
  ((lanesRead command).filter fun r => decide (r.1 = port)).length

/-- The first lanes of a port replaced by the given words. -/
def overlayLanes (old : Vector Word 32) (ws : List Word) : Vector Word 32 :=
  Vector.ofFn fun i => ws.getD i.val old[i]

/-- The operand ports with the lane operands a, b and c_in of a command placed on them in that order; `none` where the
number of operands or of lanes does not fit (30 R81, R83). -/
def placeLanes (command : Instr) (p : InPorts) : List LanePort → List HostValue → Option InPorts
  | [], [] => some p
  | port :: ports, .lanes ws :: vs =>
    if ws.length = laneCount command port then
      match port with
      | .aBits => placeLanes command { p with aBits := overlayLanes p.aBits ws } ports vs
      | .bBits => placeLanes command { p with bBits := overlayLanes p.bBits ws } ports vs
      | .cBit => placeLanes command { p with cBit := ws.headD p.cBit } ports vs
    else none
  | _, _ => none

/-- The ports of a command's operands, in the order of the source signature: a, b, c_in (30 R83). -/
def lanePorts (command : Instr) : List LanePort :=
  [.aBits, .bBits, .cBit].filter fun port => laneCount command port != 0

/-- The operand ports with a command's operands placed on them (30 R81, R83). Ports the command does not read keep what
the host had on them. -/
def placeOperands (command : Instr) (p : InPorts) (vs : List HostValue) : Option InPorts :=
  if readsWord command then
    match vs with
    | [.word w] => some { p with aWord := w }
    | _ => none
  else if readsBool command then
    match vs with
    | [.truth b] => some { p with aBool := b }
    | _ => none
  else placeLanes command p (lanePorts command) vs

/-- The transaction the assembler emits for a line (30 R83). -/
def assemble (env : HostEnv) (p : InPorts) (l : AsmLine) : Option Transaction := do
  let vs ← l.operands.mapM (operandValue env)
  let inp ← placeOperands l.command p vs
  return { cmd := encode l.command, inp := inp }

/-- The driven values of a record, in the order the line names them: R_BITS (or R_WORD, or R_BOOL), then R_CO. -/
def drivenValues (r : Results) : List HostValue :=
  let lanes := r.rBits.toList.filterMap id
  (if lanes.isEmpty then [] else [.lanes lanes]) ++ (r.rWord.map HostValue.word).toList ++
    (r.rBool.map HostValue.truth).toList ++ (r.rCo.map fun w => HostValue.lanes [w]).toList

/-- The host runs one line: it presents the emitted transaction and names the results. A name of a command that drove
nothing holds no value (60 R201). `none` is the host's own error: a line that emits no transaction. -/
def runLine (l : AsmLine) (env : HostEnv) (s : State) : Option (HostEnv × State) := do
  let t ← assemble env s.inp l
  let (record, s') := serve t s
  let kept := env.filter fun e => !(l.results.contains e.1)
  return (l.results.zip (drivenValues (record.getD noValue)) ++ kept, s')

end Sys2Proof.Machine
end

