-- ==== Sys2Proof/Safety.lean ====
section
/-! DEFINITION. What counts as a completed command and a safe step, in the terms the statements use (spec 10 R37; 60
R201, R215). -/

namespace Sys2Proof.Safety

open Sys2Proof.Machine

/-- The result record holds exactly these values: on each lane of R_BITS, on R_CO, R_WORD and R_BOOL, with this
STATUS. -/
def Holds (r : Results) (bits : Nat → Option Word) (co word : Option Word) (bool : Option (BitVec 1)) (st : Status) : Prop :=
  (∀ i : Fin 32, r.rBits[i] = bits i) ∧ r.rCo = co ∧ r.rWord = word ∧ r.rBool = bool ∧ r.status = some st

/-- Only the STATUS port holds a value (60 R201). -/
def OnlyStatus (r : Results) (st : Status) : Prop := Holds r (fun _ => none) none none none st

/-- Everything but the result ports is the same in both states: CMD, every operand port, and the reset condition. -/
def SameInputs (s t : State) : Prop := t.cmd = s.cmd ∧ t.inp = s.inp ∧ t.inReset = s.inReset

/-- The lanes 0, 1, … of a port hold these Bits. -/
abbrev Carries (lanes : Vector Word 32) (bs : List Bit) : Prop := lanes.toList.take bs.length = bs.map pat

/-- Lane values that are present on the first lanes only. -/
def firstLanes (n : Nat) (f : Nat → Word) : Nat → Option Word := fun i => if i < n then some (f i) else none

/-- Every driven Bit lane holds a domain pattern (40 R108). -/
def Closed (r : Results) : Prop :=
  (∀ (i : Fin 32) (w : Word), r.rBits[i] = some w → inDomain w = true) ∧ ∀ w : Word, r.rCo = some w → inDomain w = true

/-- Unless STATUS is OK, no other result port holds a value (60 R201, 10 R38). -/
def ErrorsDriveNothing (r : Results) : Prop :=
  r.status ≠ some .ok → (∀ i : Fin 32, r.rBits[i] = none) ∧ r.rCo = none ∧ r.rWord = none ∧ r.rBool = none

/-- The invariant of the result ports. -/
def PortInvariant (s : State) : Prop := Closed s.out ∧ ErrorsDriveNothing s.out

/-- A command stops with DOMAIN_VIOLATION, naming itself and this lane, and only STATUS is driven (40 R102, 60 R201,
R215). -/
def FaultsAt (i : Instr) (s : State) (port : LanePort) (lane : Nat) (w : Word) : Prop :=
  ∃ record, exec i s = .fault (.domainViolation i { port := port, lane := lane, word := w } record) ∧
    OnlyStatus record .domainViolation

/-- A command of two Bit operands: its byte, its result lane on every pair of Bits, and where it faults: lane A first,
then lane B (41 R122, R124, R126). -/
def TwoBitCommand (i : Instr) (byte : CmdByte) (f : Bit → Bit → Bit) : Prop :=
  encode i = byte ∧
  (∀ (s : State) (a b : Bit), s.inp.aBits[0] = pat a → s.inp.bBits[0] = pat b →
    ∃ t, exec i s = .next t ∧ SameInputs s t ∧
      Holds t.out (firstLanes 1 fun _ => pat (f a b)) none none none .ok) ∧
  (∀ s : State, inDomain s.inp.aBits[0] = false → FaultsAt i s .aBits 0 s.inp.aBits[0]) ∧
  (∀ s : State, inDomain s.inp.aBits[0] = true → inDomain s.inp.bBits[0] = false →
    FaultsAt i s .bBits 0 s.inp.bBits[0])

/-- A command that reads lanes 0..n-1 of A_BITS alone faults at the lowest bad one (42 R142, R148; 43 R177). -/
def FaultsAtLowestLane (i : Instr) (n : Nat) : Prop :=
  ∀ (s : State) (good : List Bit) (w : Word), good.length < n → Carries s.inp.aBits good →
    s.inp.aBits.toList[good.length]? = some w → inDomain w = false → FaultsAt i s .aBits good.length w

/-- A command that reads lanes 0..n-1 of A_BITS and then of B_BITS faults at the first bad one (42 R144, 43 R180). -/
def FaultsAtFirstLaneOfTwo (i : Instr) (n : Nat) : Prop :=
  FaultsAtLowestLane i n ∧
  ∀ (s : State) (a good : List Bit) (w : Word), a.length = n → Carries s.inp.aBits a →
    good.length < n → Carries s.inp.bBits good →
    s.inp.bBits.toList[good.length]? = some w → inDomain w = false → FaultsAt i s .bBits good.length w

/-- The pattern on lane k of the SofterFloat bus of a binary32 word: the word's bit k for the fraction and exponent
lanes, and the word's own sign bit as the pattern's sign on lane 31 (43 R173, R175). -/
def floatLane (w : Word) (k : Nat) : Word :=
  if k = 31 then w &&& 0x80000000#32 else if w.getLsbD k then 0x00000000#32 else 0x80000000#32

/-- A port carries the SofterFloat of a binary32 word on its 32 lanes. -/
abbrev CarriesFloat (lanes : Vector Word 32) (w : Word) : Prop := ∀ k : Fin 32, lanes[k] = floatLane w k

/-- The closed form of FADDSS on naturals (43 R187). -/
def closedFadd (wa wb : Word) : Word :=
  let ea := wa.toNat / 2 ^ 23 % 256
  let eb := wb.toNat / 2 ^ 23 % 256
  let a := wa.toNat % 2 ^ 23 + if ea ≠ 0 then 2 ^ 23 else 0
  let b := wb.toNat % 2 ^ 23 + if eb ≠ 0 then 2 ^ 23 else 0
  let sum := if eb ≤ ea then a + b / 2 ^ (ea - eb) else a / 2 ^ (eb - ea) + b
  let e := if eb ≤ ea then ea else eb
  let sign := wa.toNat / 2 ^ 31
  if 2 ^ 24 ≤ sum then BitVec.ofNat 32 (sign * 2 ^ 31 + (e + 1) % 256 * 2 ^ 23 + sum / 2 % 2 ^ 23)
  else BitVec.ofNat 32 (sign * 2 ^ 31 + e % 256 * 2 ^ 23 + sum % 2 ^ 23)

/-- The complete list of legal command bytes with their assembler names (30 R75). -/
def legalBytes : List (CmdByte × String) :=
  [(0x08, "FSUB"), (0x10, "ENCB"), (0x18, "ISONE"), (0x20, "NOT"), (0x28, "OR"), (0x30, "AND"), (0x38, "XOR"),
    (0x40, "FA")] ++
  [(0x48, "ENC.8"), (0x49, "ENC.23"), (0x4A, "ENC.24"), (0x4B, "ENC.32"),
    (0x50, "DEC.8"), (0x51, "DEC.23"), (0x52, "DEC.24"), (0x53, "DEC.32")] ++
  [(0x58, "ADD.8"), (0x59, "ADD.23"), (0x5A, "ADD.24"), (0x5B, "ADD.32"),
    (0x60, "SHR.8"), (0x61, "SHR.23"), (0x62, "SHR.24"), (0x63, "SHR.32")] ++
  [(0x68, "FUNPACK"), (0x70, "FPACK"), (0x78, "FADDSS")]

/-- ENC.N, its width and its byte (42 R140). -/
def encCommands : List (Instr × Nat × CmdByte) := [(.enc8, 8, 0x48), (.enc23, 23, 0x49), (.enc24, 24, 0x4A), (.enc32, 32, 0x4B)]

/-- DEC.N, its width and its byte (42 R142). -/
def decCommands : List (Instr × Nat × CmdByte) := [(.dec8, 8, 0x50), (.dec23, 23, 0x51), (.dec24, 24, 0x52), (.dec32, 32, 0x53)]

/-- ADD.N, its width and its byte (42 R144). -/
def addCommands : List (Instr × Nat × CmdByte) := [(.add8, 8, 0x58), (.add23, 23, 0x59), (.add24, 24, 0x5A), (.add32, 32, 0x5B)]

/-- SHR.N, its width and its byte (42 R148). -/
def shrCommands : List (Instr × Nat × CmdByte) := [(.shr8, 8, 0x60), (.shr23, 23, 0x61), (.shr24, 24, 0x62), (.shr32, 32, 0x63)]

/-- A safe step: it neither faults nor is refused. -/
def SafeStep (s : State) : Prop := ∃ t, Sys2Proof.core.step s = .next t

end Sys2Proof.Safety
end

