-- ==== Sys2Proof/Certificates/Slice0/Obligations.lean ====
section
/-! DEFINITION. The statements for the provers. Each docstring names the rules of spec/ its statement formalises. -/

open Sys2Proof Sys2Proof.Machine Sys2Proof.Safety

/-- 30 R78, 10 R31: a legal byte on CMD, with reset released, runs its command (a byte held on CMD through reset too: the
model's choice, log entry 20). -/
def Obligations.StepRunsPresentedCommand : Prop :=
  ∀ (s : State) (c : CmdByte) (i : Instr), s.inReset = false → s.cmd = some c → decode c = .ok i → step s = exec i s

/-- The model's choice (log entry 2): with no command presented a step changes nothing. -/
def Obligations.IdleStepChangesNothing : Prop := ∀ s : State, s.cmd = none → step s = .next s

/-- 70 R230: a command presented during reset has no step; the form of the stop is the model's (log entry 6). -/
def Obligations.CommandDuringResetIsStuck : Prop :=
  ∀ (s : State) (c : CmdByte), s.cmd = some c → s.inReset = true → step s = .fault (.commandDuringReset c)

/-- 30 R75: the 27 legal bytes with their names, each computed from OP and WSEL with RSV = 0; no other byte decodes. -/
def Obligations.LegalBytesAreTheTable : Prop :=
  (∀ (c : CmdByte) (m : String), (∃ i, decode c = .ok i ∧ i.mnemonic = m) ↔ (c, m) ∈ legalBytes) ∧
  (∀ (c : CmdByte) (i : Instr), decode c = .ok i →
    (fieldsOf c).rsv = 0 ∧ c.toNat = ((fieldsOf c).op.toNat <<< 3 ||| (fieldsOf c).wsel.toNat)) ∧
  legalBytes.length = 27 ∧ (legalBytes.map Prod.fst).Nodup

/-- 30 R71, R78: decoding and encoding agree in both directions. -/
def Obligations.DecodeInvertsEncode : Prop := ∀ (c : CmdByte) (i : Instr), decode c = .ok i ↔ encode i = c

/-- 30 R77, 60 R202: every illegal byte faults before any operand is looked at, with STATUS alone driven, and every other
byte is legal. -/
def Obligations.IllegalByteFaults : Prop :=
  ∀ (s : State) (c : CmdByte), s.inReset = false → s.cmd = some c →
    if (fieldsOf c).op.toNat = 0 ∨ 0x10 ≤ (fieldsOf c).op.toNat ∨ (fieldsOf c).rsv = 1 ∨
        ((fieldsOf c).op.toNat ∉ [0x09, 0x0A, 0x0B, 0x0C] ∧ (fieldsOf c).wsel ≠ 0) then
      ∃ why record, step s = .fault (.illegalCommand c why record) ∧ OnlyStatus record .illegalCommand
    else ∃ i, decode c = .ok i ∧ step s = exec i s

/-- 10 R38, 70 R230: right after reset, and after a reset of any state, every result port holds no value; a reset
changes no operand port and not CMD (that a byte stays on CMD through reset is the model's choice, log entry 20). -/
def Obligations.ResetClearsResultPorts : Prop :=
  (∀ p : ResultPort, hostRead State.reset p = .error (.undrivenPort p)) ∧
  ∀ s : State, (∀ p : ResultPort, hostRead s.assertReset.releaseReset p = .error (.undrivenPort p)) ∧
    s.assertReset.releaseReset.cmd = s.cmd ∧ s.assertReset.releaseReset.inp = s.inp

/-- 40 R103: FSUB is ZERO only for ZERO - ONE, and gives ONE for the same Bit on both operands. -/
def Obligations.FsubIsBitSubtraction : Prop :=
  TwoBitCommand .fsub 0x08 (fun a b => if a = .zero ∧ b = .one then .zero else .one) ∧
  ∀ a b : Bit, (val (fsub a b) = 1 ↔ val a = 1 ∨ ¬ val b = 1) ∧ fsub a a = .one

/-- 40 R104: every entry of the FSUB table is forced by NOT's truth table with `not(x) = ZERO - x` and OR's truth table
with `or(a, b) = a - not(b)`. -/
def Obligations.FsubTableIsForced : Prop :=
  ∀ f : Bit → Bit → Bit, f .zero .one = .zero → f .zero .zero = .one →
    (∀ a b : Bit, f a (f .zero b) = if a = .one ∨ b = .one then .one else .zero) → f = fsub

/-- 40 R105: ENCB. -/
def Obligations.EncbEncodesBoolean : Prop :=
  encode .encb = 0x10 ∧
  ∀ s : State, ∃ t, exec .encb s = .next t ∧ SameInputs s t ∧
    Holds t.out (firstLanes 1 fun _ => if s.inp.aBool = 1 then 0x00000000 else 0x80000000) none none none .ok

/-- 40 R106: ISONE. -/
def Obligations.IsoneReadsSignBit : Prop :=
  encode .isone = 0x18 ∧
  (∀ s : State, inDomain s.inp.aBits[0] = true → ∃ t, exec .isone s = .next t ∧ SameInputs s t ∧
    Holds t.out (fun _ => none) none none (some (if s.inp.aBits[0].getLsbD 31 then 0 else 1)) .ok) ∧
  ∀ s : State, inDomain s.inp.aBits[0] = false → FaultsAt .isone s .aBits 0 s.inp.aBits[0]

/-- 40 R107: ISONE applied to ENCB's lane returns the boolean, and ENCB applied to ISONE's boolean returns the pattern. -/
def Obligations.EncbIsoneAreInverse : Prop :=
  (∀ s : State, ∃ t w, exec .encb s = .next t ∧ t.out.rBits[0] = some w ∧
    ∀ s' : State, s'.inp.aBits[0] = w → ∃ t', exec .isone s' = .next t' ∧ t'.out.rBool = some s.inp.aBool) ∧
  ∀ s : State, inDomain s.inp.aBits[0] = true → ∃ t b, exec .isone s = .next t ∧ t.out.rBool = some b ∧
    ∀ s' : State, s'.inp.aBool = b → ∃ t', exec .encb s' = .next t' ∧ t'.out.rBits[0] = some s.inp.aBits[0]

/-- 41 R120: NOT. -/
def Obligations.NotComplements : Prop :=
  encode .notGate = 0x20 ∧
  (∀ (s : State) (x : Bit), s.inp.aBits[0] = pat x → ∃ t, exec .notGate s = .next t ∧ SameInputs s t ∧
    Holds t.out (firstLanes 1 fun _ => if x = .one then 0x80000000 else 0x00000000) none none none .ok) ∧
  (∀ s : State, inDomain s.inp.aBits[0] = false → FaultsAt .notGate s .aBits 0 s.inp.aBits[0]) ∧
  ∀ x : Bit, gateNot x = fsub .zero x ∧ gateNot (gateNot x) = x

/-- 41 R122: OR. -/
def Obligations.OrIsDisjunction : Prop :=
  TwoBitCommand .orGate 0x28 (fun a b => if a = .one ∨ b = .one then .one else .zero) ∧
  ∀ a b : Bit, gateOr a b = fsub a (gateNot b) ∧ gateOr a a = a

/-- 41 R124: AND. -/
def Obligations.AndIsConjunction : Prop :=
  TwoBitCommand .andGate 0x30 (fun a b => if a = .one ∧ b = .one then .one else .zero) ∧
  ∀ a b : Bit, gateAnd a b = gateNot (gateOr (gateNot a) (gateNot b)) ∧ gateAnd a a = a

/-- 41 R126: XOR. -/
def Obligations.XorIsDifference : Prop :=
  TwoBitCommand .xorGate 0x38 (fun a b => if a = b then .zero else .one) ∧
  ∀ a b : Bit, gateXor a b = gateOr (gateAnd (gateNot a) b) (gateAnd a (gateNot b)) ∧ gateXor a a = .zero

/-- 41 R128: FA adds its three Bits, and its lanes are checked in the order A, B, C_BIT. -/
def Obligations.FullAdderAddsThreeBits : Prop :=
  encode .fa = 0x40 ∧
  (∀ (s : State) (a b c : Bit), s.inp.aBits[0] = pat a → s.inp.bBits[0] = pat b → s.inp.cBit = pat c →
    ∃ t sum carry, exec .fa s = .next t ∧ SameInputs s t ∧
      Holds t.out (firstLanes 1 fun _ => pat sum) (some (pat carry)) none none .ok ∧
      val sum + 2 * val carry = val a + val b + val c) ∧
  (∀ s : State, inDomain s.inp.aBits[0] = false → FaultsAt .fa s .aBits 0 s.inp.aBits[0]) ∧
  (∀ s : State, inDomain s.inp.aBits[0] = true → inDomain s.inp.bBits[0] = false →
    FaultsAt .fa s .bBits 0 s.inp.bBits[0]) ∧
  (∀ s : State, inDomain s.inp.aBits[0] = true → inDomain s.inp.bBits[0] = true → inDomain s.inp.cBit = false →
    FaultsAt .fa s .cBit 0 s.inp.cBit) ∧
  ∀ a b c : Bit, fullAdder a b c =
    (gateXor (gateXor a b) c, gateOr (gateAnd (gateXor a b) c) (gateAnd a b))

/-- 42 R140, R141: ENC.N drives bit i of A_WORD on lane i < N and truncates silently. -/
def Obligations.EncodeDrivesWordBits : Prop :=
  (∀ p ∈ encCommands, encode p.1 = p.2.2 ∧
    ∀ s : State, ∃ t, exec p.1 s = .next t ∧ SameInputs s t ∧
      Holds t.out (firstLanes p.2.1 fun k => if s.inp.aWord.getLsbD k then 0x00000000 else 0x80000000)
        none none none .ok) ∧
  (∀ srcw n x i : Nat, i < n →
    ((encodeN srcw n x)[i]? = some .one ↔ i < srcw ∧ x.testBit i = true) ∧ (encodeN srcw n x).length = n) ∧
  ∀ n x : Nat, n ≤ Config.srcw → num (encodeN Config.srcw n x) = x % 2 ^ n

/-- 42 R142: DEC.N drives the number of its lanes, zero-extended, and faults at the lowest bad lane. -/
def Obligations.DecodeDrivesLaneNumber : Prop :=
  ∀ p ∈ decCommands, encode p.1 = p.2.2 ∧
    (∀ (s : State) (bs : List Bit), bs.length = p.2.1 → Carries s.inp.aBits bs →
      ∃ t w, exec p.1 s = .next t ∧ SameInputs s t ∧ Holds t.out (fun _ => none) none (some w) none .ok ∧
        w.toNat = num bs ∧ w.toNat < 2 ^ p.2.1) ∧
    FaultsAtLowestLane p.1 p.2.1 ∧
    num (List.replicate p.2.1 .one) = 2 ^ p.2.1 - 1

/-- 42 R143: DEC.N of ENC.N returns the word modulo 2^N. -/
def Obligations.DecodeOfEncodeIsModulo : Prop :=
  ∀ p ∈ [(Instr.enc8, Instr.dec8, 8), (.enc23, .dec23, 23), (.enc24, .dec24, 24), (.enc32, .dec32, 32)],
    ∀ s : State, ∃ t, exec p.1 s = .next t ∧
      ∀ s' : State, (∀ k : Fin 32, k.val < p.2.2 → t.out.rBits[k] = some s'.inp.aBits[k]) →
        ∃ t' w, exec p.2.1 s' = .next t' ∧ t'.out.rWord = some w ∧ w.toNat = s.inp.aWord.toNat % 2 ^ p.2.2

/-- 42 R144: ADD.N's sum and carry add up exactly; the first bad lane is in the order A, then B. -/
def Obligations.AddDrivesSumAndCarry : Prop :=
  ∀ p ∈ addCommands, encode p.1 = p.2.2 ∧
    (∀ (s : State) (a b : List Bit), a.length = p.2.1 → b.length = p.2.1 →
      Carries s.inp.aBits a → Carries s.inp.bBits b →
      ∃ t sum carry, exec p.1 s = .next t ∧ SameInputs s t ∧ sum.length = p.2.1 ∧
        Holds t.out (fun k => sum[k]?.map pat) (some (pat carry)) none none .ok ∧
        num sum + 2 ^ p.2.1 * val carry = num a + num b ∧
        num sum = (num a + num b) % 2 ^ p.2.1 ∧ (carry = .one ↔ 2 ^ p.2.1 ≤ num a + num b)) ∧
    FaultsAtFirstLaneOfTwo p.1 p.2.1

/-- DERIVED. The carry threads from lane 0 upward, and lane i's full adder takes the carry out of lane i-1 (42 R147), and
the last carry is the carry out (42 R144). That the first carry is ZERO is no words of R147: it is the spec's own
inference (42 R146), DEDUCED, log entry 10. -/
def Obligations.AddThreadsTheCarry : Prop :=
  ∀ a b : List Bit, a.length = b.length →
    ∃ carries : List Bit, carries.length = a.length + 1 ∧ carries[0]? = some .zero ∧
      carries[a.length]? = some (addN a b).2 ∧
      ∀ (i : Nat) (x y c : Bit), a[i]? = some x → b[i]? = some y → carries[i]? = some c →
        (addN a b).1[i]? = some (fullAdder x y c).1 ∧ carries[i + 1]? = some (fullAdder x y c).2

/-- 42 R148: SHR.N moves every lane down by one, drives ZERO on lane N-1, halves the number, and faults at the
lowest bad lane. -/
def Obligations.ShiftRightMovesLanes : Prop :=
  ∀ p ∈ shrCommands, encode p.1 = p.2.2 ∧
    (∀ (s : State) (x : List Bit), x.length = p.2.1 → Carries s.inp.aBits x →
      ∃ t r, exec p.1 s = .next t ∧ SameInputs s t ∧ r.length = p.2.1 ∧
        Holds t.out (fun k => r[k]?.map pat) none none none .ok ∧
        (∀ k : Nat, k + 1 < p.2.1 → r[k]? = x[k + 1]?) ∧ r[p.2.1 - 1]? = some .zero ∧ num r = num x / 2) ∧
    FaultsAtLowestLane p.1 p.2.1 ∧ ∀ b : Bit, shiftRight [b] = [.zero]

/-- 42 R143, R145, R149: the laws of the soft-integer functions at every width (00 R7, 42 R151). -/
def Obligations.SoftIntegerLawsAtEveryWidth : Prop :=
  (∀ srcw n x : Nat, x < 2 ^ srcw →
    decodeN (encodeN srcw n x) = x % 2 ^ n ∧ (x < 2 ^ n → decodeN (encodeN srcw n x) = x)) ∧
  (∀ srcw n x y : Nat, n ≤ srcw → x < 2 ^ n → y < 2 ^ n →
    decodeN (addN (encodeN srcw n x) (encodeN srcw n y)).1 = (x + y) % 2 ^ n ∧
    ((addN (encodeN srcw n x) (encodeN srcw n y)).2 = .one ↔ 2 ^ n ≤ x + y) ∧
    decodeN (shiftRight (encodeN srcw n x)) = x >>> 1) ∧
  (∀ a b : List Bit, a.length = b.length →
    (addN a b).1.length = a.length ∧
      decodeN (addN a b).1 + 2 ^ a.length * val (addN a b).2 = decodeN a + decodeN b) ∧
  (∀ x : List Bit, decodeN (shiftRight x) = decodeN x / 2) ∧
  ∀ (k : Nat) (x : List Bit), decodeN (shiftRightBy k x) = decodeN x / 2 ^ k

/-- 43 R175: FUNPACK copies the fields of the word; every word is accepted. -/
def Obligations.FunpackCopiesFields : Prop :=
  encode .funpack = 0x68 ∧
  (∀ s : State, ∃ t, exec .funpack s = .next t ∧ SameInputs s t ∧
    Holds t.out (firstLanes 32 (floatLane s.inp.aWord)) none none none .ok) ∧
  ∀ w : Word, num (funpack w).exponent = w.toNat / 2 ^ 23 % 256 ∧ num (funpack w).fraction = w.toNat % 2 ^ 23 ∧
    (funpack w).exponent.length = 8 ∧ (funpack w).fraction.length = 23 ∧
    ((funpack w).sign = .zero ↔ w.getLsbD 31 = true)

/-- 43 R177: FPACK assembles the word of its lanes, whatever they are, and faults at the lowest bad lane. -/
def Obligations.FpackAssemblesWord : Prop :=
  encode .fpack = 0x70 ∧
  (∀ (s : State) (bs : List Bit), bs.length = 32 → Carries s.inp.aBits bs →
    ∃ t w, exec .fpack s = .next t ∧ SameInputs s t ∧ Holds t.out (fun _ => none) none (some w) none .ok ∧
      (w.getLsbD 31 = true ↔ bs[31]? = some .zero) ∧
      ∀ k : Nat, k < 31 → (w.getLsbD k = true ↔ bs[k]? = some .one)) ∧
  FaultsAtLowestLane .fpack 32

/-- 43 R178: FPACK of FUNPACK returns every word, and FUNPACK of FPACK returns every SofterFloat in the domain. -/
def Obligations.FloatRoundTrip : Prop :=
  (∀ s : State, ∃ t, exec .funpack s = .next t ∧
    ∀ s' : State, (∀ k : Fin 32, t.out.rBits[k] = some s'.inp.aBits[k]) →
      ∃ t', exec .fpack s' = .next t' ∧ t'.out.rWord = some s.inp.aWord) ∧
  ∀ s : State, (∀ k : Fin 32, inDomain s.inp.aBits[k] = true) → ∃ t w, exec .fpack s = .next t ∧
    t.out.rWord = some w ∧
    ∀ s' : State, s'.inp.aWord = w → ∃ t', exec .funpack s' = .next t' ∧
      ∀ k : Fin 32, t'.out.rBits[k] = some s.inp.aBits[k]

/-- 43 R187: with equal signs FADDSS completes, and its five steps give the closed form, for every pair of words. On the
unhandled cases (an exponent of 0 or 255, an exponent overflow) the value rests on UNHANDLED_FADD_POLICY standing at the
default `rule_value` of 43 R189: log entry 8. -/
def Obligations.FaddEqualsClosedForm : Prop :=
  ∀ (s : State) (wa wb : Word), CarriesFloat s.inp.aBits wa → CarriesFloat s.inp.bBits wb →
    wa.getLsbD 31 = wb.getLsbD 31 →
    ∃ t, exec .faddss s = .next t ∧ SameInputs s t ∧
      Holds t.out (firstLanes 32 (floatLane (closedFadd wa wb))) none none none .ok

/-- DERIVED. Different signs end FADDSS with UNSUPPORTED_OPERAND and no result, zeros included (43 R181). That this outcome
is a next state is the model's form of the "error outcome" of 60 R215, which 93 U1 calls refuse: DEDUCED, log entry 5. -/
def Obligations.FaddRefusesDifferentSigns : Prop :=
  ∀ (s : State) (wa wb : Word), CarriesFloat s.inp.aBits wa → CarriesFloat s.inp.bBits wb →
    wa.getLsbD 31 ≠ wb.getLsbD 31 →
    ∃ t, exec .faddss s = .next t ∧ SameInputs s t ∧ OnlyStatus t.out .unsupportedOperand

/-- 43 R180, 60 R206: FADDSS's byte, and its domain checks, A lanes before B lanes and both before the signs. -/
def Obligations.FaddChecksLanesFirst : Prop := encode .faddss = 0x78 ∧ FaultsAtFirstLaneOfTwo .faddss 32

/-- 43 R188: the aligned significands are below 2^24, so their sum is below 2^25 and one shift brings it below 2^24. -/
def Obligations.FaddNeedsAtMostOneShift : Prop :=
  ∀ a b : SofterFloat, a.exponent.length = 8 → a.fraction.length = 23 → b.exponent.length = 8 → b.fraction.length = 23 →
    num (align a b).1 < 2 ^ 24 ∧ num (align a b).2.1 < 2 ^ 24 ∧
      num (align a b).1 + num (align a b).2.1 < 2 ^ 25 ∧ (num (align a b).1 + num (align a b).2.1) / 2 < 2 ^ 24

/-- 43 R183: the working exponent is the larger one, and the significand of the smaller exponent is shifted right by the
difference, to 0 from a difference of 24 on. -/
def Obligations.AlignmentShiftsSmallerOperand : Prop :=
  ∀ a b : SofterFloat, a.fraction.length = 23 → b.fraction.length = 23 →
    (align a b).2.2 = max (decodeN a.exponent) (decodeN b.exponent) ∧
    num (align a b).1 = num (significand a) / 2 ^ (decodeN b.exponent - decodeN a.exponent) ∧
    num (align a b).2.1 = num (significand b) / 2 ^ (decodeN a.exponent - decodeN b.exponent) ∧
    (decodeN a.exponent + 24 ≤ decodeN b.exponent → num (align a b).1 = 0) ∧
    (decodeN b.exponent + 24 ≤ decodeN a.exponent → num (align a b).2.1 = 0)

/-- 43 R190: 2.0 plus 1.8 gives 0x40733333. -/
def Obligations.TwoPlusOnePointEight : Prop :=
  ∀ s : State, CarriesFloat s.inp.aBits 0x40000000 → CarriesFloat s.inp.bBits 0x3FE66666 →
    ∃ t, exec .faddss s = .next t ∧ ∀ k : Fin 32, t.out.rBits[k] = some (floatLane 0x40733333 k)

/-- 43 R189: the two values of UNHANDLED_FADD_POLICY agree wherever the case is handled; which cases those are is the
model's reading (log entry 8). -/
def Obligations.PoliciesAgreeOnHandledCases : Prop :=
  ∀ a b : SofterFloat, unhandledFadd a b = false → faddLanes .anyValue a b = faddLanes .ruleValue a b

/-- DERIVED. A command stops exactly at the first lane it reads that holds no domain pattern (40 R102, 60 R204; the lanes
are those of 30 R81, in the order of 60 R206), and otherwise answers a next state; the commands that read no lane never
stop. The next state of FADDSS on different sign lanes is not its own sum but UNSUPPORTED_OPERAND; that this is a next
state is the model's form of 60 R215, DEDUCED, log entry 5, and the fault's form is log entry 4's. -/
def Obligations.CommandStopsExactlyAtFirstBadLane : Prop :=
  (∀ (i : Instr) (s : State),
    match firstBadLane s.inp (lanesRead i) with
    | some bad => ∃ record, exec i s = .fault (.domainViolation i bad record) ∧ OnlyStatus record .domainViolation
    | none => ∃ t, exec i s = .next t ∧ SameInputs s t) ∧
  ∀ i : Instr, lanesRead i = [] ↔ i ∈ [.encb, .enc8, .enc23, .enc24, .enc32, .funpack]

/-- DERIVED. No command has an error but DOMAIN_VIOLATION and FADDSS's UNSUPPORTED_OPERAND on different sign lanes (60
R203, R205). The forms are the model's: DOMAIN_VIOLATION is a fault naming the command (60 R215, log entry 4), and that
UNSUPPORTED_OPERAND is the STATUS of a next state, so that no command is refused although 93 U1 says refuse, is DEDUCED,
log entry 5. -/
def Obligations.NoOtherErrorExists : Prop :=
  ∀ (i : Instr) (s : State),
    (∀ why, exec i s ≠ .refused why) ∧
    (∀ f, exec i s = .fault f → ∃ bad record, f = .domainViolation i bad record) ∧
    ∀ t, exec i s = .next t → t.out.status = some .ok ∨
      (t.out.status = some .unsupportedOperand ∧ i = .faddss ∧ s.inp.aBits[31] ≠ s.inp.bBits[31])

/-- 30 R81: a command that ends OK drives exactly the ports the table lists for it. -/
def Obligations.DrivenPortsFollowTheTable : Prop :=
  ∀ (i : Instr) (s t : State), exec i s = .next t → t.out.status = some .ok →
    (∀ k : Fin 32, t.out.rBits[k].isSome = decide (k.val < lanesDriven i)) ∧
    t.out.rCo.isSome = drivesCarry i ∧ t.out.rWord.isSome = drivesWord i ∧ t.out.rBool.isSome = drivesBool i

/-- 30 R81, 20 R58: what a command answers depends on nothing but the ports the table lists as read for it. -/
def Obligations.AnswerDependsOnlyOnPortsRead : Prop :=
  ∀ (i : Instr) (s s' : State),
    (∀ r ∈ lanesRead i, laneWord s.inp r = laneWord s'.inp r) →
    (readsWord i = true → s.inp.aWord = s'.inp.aWord) →
    (readsBool i = true → s.inp.aBool = s'.inp.aBool) →
    answered (exec i s) = answered (exec i s') ∧ ∀ f, exec i s = .fault f ↔ exec i s' = .fault f

/-- 20 R58, 60 R208: each transaction of a sequence, errors included, is answered as it is when issued alone. -/
def Obligations.SessionAnswersEachCommandAlone : Prop :=
  ∀ (ts : List Transaction) (s : State), s.inReset = false →
    session ts s = ts.map fun t => answered (step (State.reset.present t))

/-- 40 R108, 60 R201: every step keeps the result ports closed under the domain, with nothing but STATUS on an error. -/
def Obligations.StepKeepsPortInvariant : Prop :=
  ∀ s t : State, PortInvariant s → step s = .next t → PortInvariant t

/-- The invariant of the result ports holds right after reset. -/
def Obligations.ResetHasPortInvariant : Prop := PortInvariant State.reset

/-- 40 R108: every Bit lane any command drives holds a domain pattern. -/
def Obligations.DrivenLanesAreDomainPatterns : Prop :=
  ∀ (i : Instr) (s : State) (r : Results), answered (exec i s) = some r → Closed r

/-- 60 R201: a step with a command presented gives one STATUS, and one that is not OK is the only value driven. -/
def Obligations.ErrorDrivesOnlyStatus : Prop :=
  ∀ (s : State) (c : CmdByte), s.inReset = false → s.cmd = some c →
    ∃ r st, answered (step s) = some r ∧ r.status = some st ∧ (st ≠ .ok → OnlyStatus r st)

/-- 60 R200: the codes of STATUS. -/
def Obligations.StatusCodes : Prop :=
  statusCode .ok = 0b00 ∧ statusCode .illegalCommand = 0b01 ∧ statusCode .domainViolation = 0b10 ∧
    statusCode .unsupportedOperand = 0b11

/-- 10 R30, R37: a step changes no port in, not CMD and not the reset condition, whether it goes on or faults. That the byte
stays on CMD is the model's choice (log entry 1), and so is the state after a command during reset (log entry 21). -/
def Obligations.StepWritesOnlyResultPorts : Prop :=
  ∀ s : State, (∀ t, step s = .next t → SameInputs s t) ∧ SameInputs s (afterAnswer s (step s))

/-- DERIVED. The same command with the same operands again gives the same results, whatever the result ports hold (20 R55).
That a step leaves the byte on CMD, so that a second step runs the same command and answers the same state again, is the
model's choice (log entry 1), and so is the step with no command presented (log entry 2). -/
def Obligations.CommandsAreIdempotent : Prop :=
  (∀ s t : State, step s = .next t → SameInputs s t ∧ step t = .next t) ∧
  ∀ (s : State) (r : Results), s.cmd ≠ none → answered (step (s.withResults r)) = answered (step s)

/-- 70 R231: a command gives the same result before and after any number of resets. -/
def Obligations.ResetsChangeNoAnswer : Prop :=
  ∀ (s : State) (t : Transaction) (n : Nat), s.inReset = false →
    answered (step (((fun u : State => u.assertReset.releaseReset)^[n] s).present t)) = answered (step (s.present t))

/-- 10 R37: reading a port that holds no value is the reader's fault, and a driven port reads as the value it holds. -/
def Obligations.UndrivenPortReadFaults : Prop :=
  ∀ s : State,
    (∀ k : Fin 32, hostRead s (.rBits k) =
      match s.out.rBits[k] with | none => .error (.undrivenPort (.rBits k)) | some w => .ok w.toNat) ∧
    (hostRead s .rCo = match s.out.rCo with | none => .error (.undrivenPort .rCo) | some w => .ok w.toNat) ∧
    (hostRead s .rWord = match s.out.rWord with | none => .error (.undrivenPort .rWord) | some w => .ok w.toNat) ∧
    (hostRead s .rBool = match s.out.rBool with | none => .error (.undrivenPort .rBool) | some b => .ok b.toNat) ∧
    (hostRead s .status =
      match s.out.status with | none => .error (.undrivenPort .status) | some st => .ok (statusCode st).toNat)

/-- 30 R83: the line `%s, %c = ADD.8 %x, %y` emits CMD = 0x58 with %x on A_BITS[0..7] and %y on B_BITS[0..7], and names
the sum's lanes and the carry. -/
def Obligations.AssemblerPlacesAddOperands : Prop :=
  ∀ (env : HostEnv) (s : State) (x y : List Bit), s.inReset = false → x.length = 8 → y.length = 8 →
    env.lookup "x" = some (.lanes (x.map pat)) → env.lookup "y" = some (.lanes (y.map pat)) →
    (∃ t, assemble env s.inp { results := ["s", "c"], command := .add8, operands := [.named "x", .named "y"] } = some t ∧
      t.cmd = 0x58 ∧ Carries t.inp.aBits x ∧ Carries t.inp.bBits y) ∧
    ∃ env' s', runLine { results := ["s", "c"], command := .add8, operands := [.named "x", .named "y"] } env s =
        some (env', s') ∧
      env'.lookup "s" = some (.lanes ((addN x y).1.map pat)) ∧ env'.lookup "c" = some (.lanes [pat (addN x y).2])
end

