-- ==== Sys2Proof/Laws/Bits.lean ====
section
/-! SUPPORT. Patterns, classification and the domain check agree, and each gate as a function of its Bits. -/

namespace Sys2Proof.Machine

@[simp] theorem val_zero : val .zero = 0 := rfl
@[simp] theorem val_one : val .one = 1 := rfl
@[simp] theorem bitof_true : bitof true = .one := rfl
@[simp] theorem bitof_false : bitof false = .zero := rfl
@[simp] theorem pat_zero : pat .zero = 0x80000000#32 := rfl
@[simp] theorem pat_one : pat .one = 0x00000000#32 := rfl

theorem val_le_one (b : Bit) : val b ≤ 1 := by cases b <;> decide

theorem val_bitof (t : Bool) : val (bitof t) = t.toNat := by cases t <;> rfl

theorem val_injective (a b : Bit) (h : val a = val b) : a = b := by
  cases a <;> cases b <;> first | rfl | (simp at h)

@[simp] theorem classify_pat (b : Bit) : classify (pat b) = b := by cases b <;> decide

@[simp] theorem inDomain_pat (b : Bit) : inDomain (pat b) = true := by cases b <;> decide

theorem pat_injective (a b : Bit) (h : pat a = pat b) : a = b := by
  rw [← classify_pat a, h, classify_pat]

/-- The domain is the two patterns. -/
theorem inDomain_iff (w : Word) : inDomain w = true ↔ ∃ b, w = pat b := by
  constructor
  · intro h
    simp only [inDomain, Bool.or_eq_true, beq_iff_eq] at h
    rcases h with h | h
    · exact ⟨.one, h⟩
    · exact ⟨.zero, h⟩
  · rintro ⟨b, rfl⟩
    exact inDomain_pat b

theorem pat_classify (w : Word) (h : inDomain w = true) : pat (classify w) = w := by
  obtain ⟨b, rfl⟩ := (inDomain_iff w).1 h
  rw [classify_pat]

@[simp] theorem isOneWord_pat (b : Bit) : isOneWord (pat b) = if b = .one then 1 else 0 := by cases b <;> decide

theorem fsub_eq (a b : Bit) : fsub a b = if a = .zero ∧ b = .one then .zero else .one := by
  cases a <;> cases b <;> rfl

theorem gateNot_eq (x : Bit) : gateNot x = if x = .one then .zero else .one := by cases x <;> rfl

theorem gateOr_eq (a b : Bit) : gateOr a b = if a = .one then .one else b := by
  cases a <;> cases b <;> rfl

theorem gateAnd_eq (a b : Bit) : gateAnd a b = if a = .one then b else .zero := by
  cases a <;> cases b <;> rfl

theorem gateXor_eq (a b : Bit) : gateXor a b = if a = b then .zero else .one := by
  cases a <;> cases b <;> rfl

end Sys2Proof.Machine
end

