-- ==== Sys2Proof/Laws/FsubCounts.lean ====
section
/-! SUPPORT. The FSUB counts of spec 70 R241, on the gate compositions written as expressions. The spec gives them for
information; no definition of the machine reads them (41 R131). -/

namespace Sys2Proof.Laws

open Sys2Proof.Machine

/-- A composition of FSUB operations over inputs and the constant ZERO. -/
inductive GateExpr where
  | input (k : Nat)
  | zero
  | sub (a b : GateExpr)

/-- The Bit an expression stands for. -/
def GateExpr.value (env : Nat → Bit) : GateExpr → Bit
  | .input k => env k
  | .zero => .zero
  | .sub a b => fsub (a.value env) (b.value env)

/-- The number of FSUB operations. -/
def GateExpr.subs : GateExpr → Nat
  | .input _ => 0
  | .zero => 0
  | .sub a b => a.subs + b.subs + 1

def exprNot (x : GateExpr) : GateExpr := .sub .zero x
def exprOr (a b : GateExpr) : GateExpr := .sub a (exprNot b)
def exprAnd (a b : GateExpr) : GateExpr := exprNot (exprOr (exprNot a) (exprNot b))
def exprXor (a b : GateExpr) : GateExpr := exprOr (exprAnd (exprNot a) b) (exprAnd a (exprNot b))

/-- The full adder over an already computed `xor(a, b)`, as its sum and its carry out. -/
def exprFullAdder (t a b c : GateExpr) : GateExpr × GateExpr :=
  (exprXor t c, exprOr (exprAnd t c) (exprAnd a b))

theorem exprXor_value (env : Nat → Bit) (a b : GateExpr) :
    (exprXor a b).value env = gateXor (a.value env) (b.value env) := rfl

theorem exprFullAdder_value (env : Nat → Bit) (a b c : GateExpr) :
    ((exprFullAdder (exprXor a b) a b c).1.value env, (exprFullAdder (exprXor a b) a b c).2.value env) =
      fullAdder (a.value env) (b.value env) (c.value env) := rfl

/-- not 1, or 2, and 5, xor 14 (70 R241). -/
theorem gate_fsub_counts :
    (exprNot (.input 0)).subs = 1 ∧ (exprOr (.input 0) (.input 1)).subs = 2 ∧
      (exprAnd (.input 0) (.input 1)).subs = 5 ∧ (exprXor (.input 0) (.input 1)).subs = 14 := by decide

/-- The FSUB operations of full_adder over a given `xor(a, b)`: an xor for the sum; two ands and an or for the carry. -/
def fullAdderSubs : Nat :=
  (exprFullAdder (.input 3) (.input 0) (.input 1) (.input 2)).1.subs +
    (exprFullAdder (.input 3) (.input 0) (.input 1) (.input 2)).2.subs

/-- full_adder: 40 with `xor(a, b)` computed once and shared, 54 with it computed twice (70 R241). -/
theorem full_adder_fsub_counts :
    (exprXor (.input 0) (.input 1)).subs + fullAdderSubs = 40 ∧
      2 * (exprXor (.input 0) (.input 1)).subs + fullAdderSubs = 54 := by decide

end Sys2Proof.Laws
end

