-- ==== Sys2Proof/Laws/Operands.lean ====
section
/-! SUPPORT. What reading a lane, and reading several, can answer. -/

namespace Sys2Proof.Machine

@[simp] theorem readLane_pat (port : LanePort) (i : Nat) (b : Bit) : readLane port i (pat b) = .ok b := by
  simp [readLane]

theorem readLane_of_bad (port : LanePort) (i : Nat) (w : Word) (h : inDomain w = false) :
    readLane port i w = .error { port := port, lane := i, word := w } := by
  simp [readLane, h]

/-- A lane read answers a Bit exactly when the lane holds that Bit's pattern. -/
theorem readLane_ok_iff (port : LanePort) (i : Nat) (w : Word) (b : Bit) :
    readLane port i w = .ok b ↔ w = pat b := by
  constructor
  · intro h
    unfold readLane at h
    split at h
    · cases h
      exact (pat_classify w ‹_›).symm
    · cases h
  · rintro rfl
    exact readLane_pat port i b

@[simp] theorem readLanes_map_pat (port : LanePort) (k : Nat) (bs : List Bit) :
    readLanes port k (bs.map pat) = .ok bs := by
  induction bs generalizing k with
  | nil => rfl
  | cons b bs ih => simp [readLanes, ih]

/-- Several lanes answer Bits exactly when they hold those Bits' patterns. -/
theorem readLanes_ok_iff (port : LanePort) (k : Nat) (ws : List Word) (bs : List Bit) :
    readLanes port k ws = .ok bs ↔ ws = bs.map pat := by
  constructor
  · intro h
    induction ws generalizing k bs with
    | nil => cases h; rfl
    | cons w ws ih =>
      unfold readLanes at h
      split at h
      · cases h
      · rename_i b hb
        split at h
        · cases h
        · rename_i bs' hbs
          cases h
          rw [(readLane_ok_iff port k w b).1 hb, ih (k + 1) bs' hbs]
          rfl
  · rintro rfl
    exact readLanes_map_pat port k bs

/-- Reading lanes k, k+1, … reports the first lane that holds no domain pattern, with its index. -/
theorem readLanes_first_bad (port : LanePort) (k : Nat) (bs : List Bit) (w : Word) (ws : List Word)
    (h : inDomain w = false) :
    readLanes port k (bs.map pat ++ w :: ws) = .error { port := port, lane := k + bs.length, word := w } := by
  induction bs generalizing k with
  | nil => simp [readLanes, readLane_of_bad _ _ _ h]
  | cons b bs ih =>
    simp only [List.map_cons, List.cons_append, readLanes, readLane_pat, ih, List.length_cons]
    rw [show k + 1 + bs.length = k + (bs.length + 1) by omega]

/-- A soft integer operand answers exactly the Bits whose patterns its lanes hold. -/
theorem softOperandA_ok_iff (n : Nat) (s : State) (bs : List Bit) :
    softOperandA n s = .ok bs ↔ s.inp.aBits.toList.take n = bs.map pat := readLanes_ok_iff .aBits 0 _ bs

theorem softOperandB_ok_iff (n : Nat) (s : State) (bs : List Bit) :
    softOperandB n s = .ok bs ↔ s.inp.bBits.toList.take n = bs.map pat := readLanes_ok_iff .bBits 0 _ bs

/-- A softer float operand answers the record of the Bits its 32 lanes hold. -/
theorem floatOperandA_ok_iff (s : State) (x : SofterFloat) :
    floatOperandA s = .ok x ↔ ∃ bs, s.inp.aBits.toList.take 32 = bs.map pat ∧ x = ofLanes bs := by
  unfold floatOperandA
  cases h : softOperandA 32 s with
  | error bad =>
    refine ⟨(fun h' => by cases h'), fun ⟨bs, hb, _⟩ => ?_⟩
    rw [(softOperandA_ok_iff 32 s bs).2 hb] at h
    cases h
  | ok bs =>
    refine ⟨fun h' => ⟨bs, (softOperandA_ok_iff 32 s bs).1 h, by cases h'; rfl⟩, fun ⟨bs', hb, hx⟩ => ?_⟩
    rw [(softOperandA_ok_iff 32 s bs').2 hb] at h
    cases h
    rw [hx]
    rfl

theorem floatOperandB_ok_iff (s : State) (x : SofterFloat) :
    floatOperandB s = .ok x ↔ ∃ bs, s.inp.bBits.toList.take 32 = bs.map pat ∧ x = ofLanes bs := by
  unfold floatOperandB
  cases h : softOperandB 32 s with
  | error bad =>
    refine ⟨(fun h' => by cases h'), fun ⟨bs, hb, _⟩ => ?_⟩
    rw [(softOperandB_ok_iff 32 s bs).2 hb] at h
    cases h
  | ok bs =>
    refine ⟨fun h' => ⟨bs, (softOperandB_ok_iff 32 s bs).1 h, by cases h'; rfl⟩, fun ⟨bs', hb, hx⟩ => ?_⟩
    rw [(softOperandB_ok_iff 32 s bs').2 hb] at h
    cases h
    rw [hx]
    rfl

/-- The first bad lane of two runs of lanes is that of the first run, if it has one. -/
theorem firstBadLane_append (p : InPorts) (a b : List LaneRef) :
    firstBadLane p (a ++ b) = (firstBadLane p a).or (firstBadLane p b) := by
  induction a with
  | nil => simp [firstBadLane]
  | cons r rs ih =>
    simp only [List.cons_append, firstBadLane]
    split <;> simp [ih]

end Sys2Proof.Machine
end

