-- ==== Sys2Proof/Laws/SoftInteger.lean ====
section
/-! SUPPORT. The lanes of the soft-integer and softer-float functions: how many there are, and each one. -/

namespace Sys2Proof.Machine

@[simp] theorem encodeN_length (srcw n x : Nat) : (encodeN srcw n x).length = n := by simp [encodeN]

/-- Lane i of an encoded number is its bit i, ZERO beyond the source width (42 R140). -/
theorem encodeN_get (srcw n x i : Nat) (h : i < n) :
    (encodeN srcw n x)[i]? = some (bitof (decide (i < srcw) && x.testBit i)) := by
  simp [encodeN, h, Nat.testBit, Nat.and_comm]

@[simp] theorem shiftRight_length (x : List Bit) : (shiftRight x).length = x.length := by
  cases x <;> simp [shiftRight]

@[simp] theorem shiftRightBy_length (k : Nat) (x : List Bit) : (shiftRightBy k x).length = x.length := by
  induction k generalizing x with
  | zero => rfl
  | succ k ih => rw [shiftRightBy, ih, shiftRight_length]

theorem rippleAdd_length (c : Bit) (a b : List Bit) : (rippleAdd c a b).1.length = min a.length b.length := by
  induction a generalizing c b with
  | nil => simp [rippleAdd]
  | cons x xs ih =>
    cases b with
    | nil => simp [rippleAdd]
    | cons y ys => simp [rippleAdd, ih]

@[simp] theorem addN_length (a b : List Bit) : (addN a b).1.length = min a.length b.length :=
  rippleAdd_length .zero a b

theorem num_lt (v : List Bit) : num v < 2 ^ v.length := by
  induction v with
  | nil => simp [num]
  | cons b bs ih =>
    have := val_le_one b
    simp only [num, List.length_cons, pow_succ]
    omega

theorem decodeFrom_eq (k : Nat) (v : List Bit) : decodeFrom k v = 2 ^ k * num v := by
  induction v generalizing k with
  | nil => simp [decodeFrom, num]
  | cons b bs ih =>
    have h : (if val b = 1 then 1 <<< k else 0) = 2 ^ k * val b := by
      cases b <;> simp [Nat.shiftLeft_eq]
    rw [decodeFrom, ih, h, num, pow_succ]
    ring

/-- Decoding gives the number the lanes stand for (42 R142). -/
theorem decodeN_eq_num (v : List Bit) : decodeN v = num v := by simp [decodeN, decodeFrom_eq]

/-- A full adder's two outputs as a number. -/
theorem fullAdder_val (a b c : Bit) :
    val (fullAdder a b c).1 + 2 * val (fullAdder a b c).2 = val a + val b + val c := by
  cases a <;> cases b <;> cases c <;> rfl

@[simp] theorem toLanes_ofLanes (l : List Bit) (h : l.length = 32) : toLanes (ofLanes l) = l := by
  have hd : l.drop 31 = [l.getD 31 .zero] := by
    rw [List.drop_eq_getElem_cons (by omega), List.drop_eq_nil_of_le (by omega), List.getD_eq_getElem _ _ (by omega)]
  have h1 : (l.drop 23).take 8 ++ l.drop 31 = l.drop 23 := by
    have := List.take_append_drop 8 (l.drop 23)
    rwa [List.drop_drop] at this
  show l.take 23 ++ (l.drop 23).take 8 ++ [l.getD 31 .zero] = l
  rw [← hd, List.append_assoc, h1, List.take_append_drop]

theorem toLanes_length (s : SofterFloat) (he : s.exponent.length = 8) (hf : s.fraction.length = 23) :
    (toLanes s).length = 32 := by simp [toLanes, he, hf]

@[simp] theorem funpack_exponent_length (w : Word) : (funpack w).exponent.length = 8 := by simp [funpack]
@[simp] theorem funpack_fraction_length (w : Word) : (funpack w).fraction.length = 23 := by simp [funpack]

@[simp] theorem significand_length (s : SofterFloat) : (significand s).length = s.fraction.length + 1 := by
  simp [significand]

theorem align_length (a b : SofterFloat) (h : a.fraction.length = b.fraction.length) :
    (align a b).1.length = a.fraction.length + 1 ∧ (align a b).2.1.length = a.fraction.length + 1 := by
  unfold align
  simp only
  split <;> [skip; split] <;> simp [h]

theorem addAligned_length (sa sb : List Bit) (e : Nat) : (addAligned sa sb e).1.length = min sa.length sb.length := by
  unfold addAligned
  simp only
  split <;> simp

end Sys2Proof.Machine
end

