-- ==== Sys2Proof/Laws/State.lean ====
section
/-! SUPPORT. What each update of the state does to each field. -/

namespace Sys2Proof.Machine

@[simp] theorem State.withResults_inReset (s : State) (r : Results) : (s.withResults r).inReset = s.inReset := rfl
@[simp] theorem State.withResults_cmd (s : State) (r : Results) : (s.withResults r).cmd = s.cmd := rfl
@[simp] theorem State.withResults_inp (s : State) (r : Results) : (s.withResults r).inp = s.inp := rfl
@[simp] theorem State.withResults_out (s : State) (r : Results) : (s.withResults r).out = r := rfl
@[simp] theorem State.withResults_twice (s : State) (r r' : Results) :
    (s.withResults r).withResults r' = s.withResults r' := rfl

@[simp] theorem State.present_inReset (s : State) (t : Transaction) : (s.present t).inReset = s.inReset := rfl
@[simp] theorem State.present_cmd (s : State) (t : Transaction) : (s.present t).cmd = some t.cmd := rfl
@[simp] theorem State.present_inp (s : State) (t : Transaction) : (s.present t).inp = t.inp := rfl
@[simp] theorem State.present_out (s : State) (t : Transaction) : (s.present t).out = s.out := rfl

@[simp] theorem State.assertReset_inReset (s : State) : s.assertReset.inReset = true := rfl
@[simp] theorem State.assertReset_cmd (s : State) : s.assertReset.cmd = s.cmd := rfl
@[simp] theorem State.assertReset_inp (s : State) : s.assertReset.inp = s.inp := rfl
@[simp] theorem State.assertReset_out (s : State) : s.assertReset.out = noValue := rfl

@[simp] theorem State.releaseReset_inReset (s : State) : s.releaseReset.inReset = false := rfl
@[simp] theorem State.releaseReset_cmd (s : State) : s.releaseReset.cmd = s.cmd := rfl
@[simp] theorem State.releaseReset_inp (s : State) : s.releaseReset.inp = s.inp := rfl
@[simp] theorem State.releaseReset_out (s : State) : s.releaseReset.out = s.out := rfl

@[simp] theorem State.withFetchWord_inReset (s : State) (n w : Nat) : (s.withFetchWord n w).inReset = false := rfl
@[simp] theorem State.withFetchWord_cmd (s : State) (n w : Nat) :
    (s.withFetchWord n w).cmd = some (BitVec.ofNat 8 w) := rfl
@[simp] theorem State.withFetchWord_inp (s : State) (n w : Nat) : (s.withFetchWord n w).inp = s.inp := rfl
@[simp] theorem State.withFetchWord_out (s : State) (n w : Nat) : (s.withFetchWord n w).out = s.out := rfl

@[simp] theorem noValue_rBits (i : Nat) (h : i < 32) : noValue.rBits[i] = none := by simp [noValue]
@[simp] theorem noValue_rCo : noValue.rCo = none := rfl
@[simp] theorem noValue_rWord : noValue.rWord = none := rfl
@[simp] theorem noValue_rBool : noValue.rBool = none := rfl
@[simp] theorem noValue_status : noValue.status = none := rfl

end Sys2Proof.Machine
end

