-- ==== Sys2Proof/Laws/Ops.lean ====
section
/-! SUPPORT. What each shared operation on the ports can do. -/

namespace Sys2Proof.Machine

@[simp] theorem laneVector_get (ws : List Word) (i : Nat) (h : i < 32) : (laneVector ws)[i] = ws[i]? := by
  simp [laneVector]

/-- The lanes of a driven port: the words, then lanes that hold no value. -/
theorem laneVector_toList (ws : List Word) (h : ws.length ≤ 32) :
    (laneVector ws).toList = ws.map some ++ List.replicate (32 - ws.length) none := by
  apply List.ext_getElem?
  intro i
  by_cases hi : i < ws.length
  · simp [laneVector, List.getElem?_append_left, hi, show i < 32 by omega]
  · rw [List.getElem?_append_right (by simpa using hi)]
    by_cases h2 : i < 32
    · simp [laneVector, hi, h2, show i - ws.length < 32 - ws.length by omega]
    · simp [laneVector, h2, show ¬ i - ws.length < 32 - ws.length by omega]

/-- The words a driven port holds are those it was driven with. -/
theorem laneVector_driven (ws : List Word) (h : ws.length ≤ 32) : (laneVector ws).toList.filterMap id = ws := by
  rw [laneVector_toList ws h]
  simp

@[simp] theorem raised_rBits (st : Status) (i : Nat) (h : i < 32) : (raised st).rBits[i] = none := noValue_rBits i h
@[simp] theorem raised_rCo (st : Status) : (raised st).rCo = none := rfl
@[simp] theorem raised_rWord (st : Status) : (raised st).rWord = none := rfl
@[simp] theorem raised_rBool (st : Status) : (raised st).rBool = none := rfl
@[simp] theorem raised_status (st : Status) : (raised st).status = some st := rfl

@[simp] theorem driveBits_rBits (bs : List Bit) (i : Nat) (h : i < 32) : (driveBits bs).rBits[i] = bs[i]?.map pat := by
  simp [driveBits]
@[simp] theorem driveBits_rCo (bs : List Bit) : (driveBits bs).rCo = none := rfl
@[simp] theorem driveBits_rWord (bs : List Bit) : (driveBits bs).rWord = none := rfl
@[simp] theorem driveBits_rBool (bs : List Bit) : (driveBits bs).rBool = none := rfl
@[simp] theorem driveBits_status (bs : List Bit) : (driveBits bs).status = some .ok := rfl

@[simp] theorem driveBitsAndCarry_rBits (bs : List Bit) (c : Bit) (i : Nat) (h : i < 32) :
    (driveBitsAndCarry bs c).rBits[i] = bs[i]?.map pat := driveBits_rBits bs i h
@[simp] theorem driveBitsAndCarry_rCo (bs : List Bit) (c : Bit) : (driveBitsAndCarry bs c).rCo = some (pat c) := rfl
@[simp] theorem driveBitsAndCarry_rWord (bs : List Bit) (c : Bit) : (driveBitsAndCarry bs c).rWord = none := rfl
@[simp] theorem driveBitsAndCarry_rBool (bs : List Bit) (c : Bit) : (driveBitsAndCarry bs c).rBool = none := rfl
@[simp] theorem driveBitsAndCarry_status (bs : List Bit) (c : Bit) : (driveBitsAndCarry bs c).status = some .ok := rfl

@[simp] theorem driveWord_rBits (w : Word) (i : Nat) (h : i < 32) : (driveWord w).rBits[i] = none := noValue_rBits i h
@[simp] theorem driveWord_rCo (w : Word) : (driveWord w).rCo = none := rfl
@[simp] theorem driveWord_rWord (w : Word) : (driveWord w).rWord = some w := rfl
@[simp] theorem driveWord_rBool (w : Word) : (driveWord w).rBool = none := rfl
@[simp] theorem driveWord_status (w : Word) : (driveWord w).status = some .ok := rfl

@[simp] theorem driveBool_rBits (b : BitVec 1) (i : Nat) (h : i < 32) : (driveBool b).rBits[i] = none := noValue_rBits i h
@[simp] theorem driveBool_rCo (b : BitVec 1) : (driveBool b).rCo = none := rfl
@[simp] theorem driveBool_rWord (b : BitVec 1) : (driveBool b).rWord = none := rfl
@[simp] theorem driveBool_rBool (b : BitVec 1) : (driveBool b).rBool = some b := rfl
@[simp] theorem driveBool_status (b : BitVec 1) : (driveBool b).status = some .ok := rfl

/-- A command answers a next state exactly when every lane it reads was good, and then only the result ports change. -/
theorem complete_next_iff (i : Instr) (s t : State) (r : Except BadLane Results) :
    complete i s r = .next t ↔ ∃ results, r = .ok results ∧ t = s.withResults results := by
  cases r with
  | ok results => simp [complete, eq_comm]
  | error bad => simp [complete]

/-- A command faults exactly on a bad lane, and the record holds STATUS = DOMAIN_VIOLATION alone. -/
theorem complete_fault_iff (i : Instr) (s : State) (f : Fault) (r : Except BadLane Results) :
    complete i s r = .fault f ↔ ∃ bad, r = .error bad ∧ f = .domainViolation i bad (raised .domainViolation) := by
  cases r with
  | ok results => simp [complete]
  | error bad => simp [complete, eq_comm]

theorem complete_not_refused (i : Instr) (s : State) (r : Except BadLane Results) (why : Refusal) :
    complete i s r ≠ .refused why := by
  cases r <;> simp [complete]

/-- What a step can be: idle, stuck in reset, an illegal byte, or its command. -/
theorem step_cases (s : State) :
    (s.cmd = none ∧ step s = .next s) ∨
    (∃ c, s.cmd = some c ∧ s.inReset = true ∧ step s = .fault (.commandDuringReset c)) ∨
    (∃ c why, s.cmd = some c ∧ s.inReset = false ∧ decode c = .error why ∧ step s = illegal c why) ∨
    (∃ c i, s.cmd = some c ∧ s.inReset = false ∧ decode c = .ok i ∧ step s = exec i s) := by
  unfold step
  cases hc : s.cmd with
  | none => exact .inl ⟨rfl, rfl⟩
  | some c =>
    cases hr : s.inReset with
    | true => exact .inr (.inl ⟨c, rfl, rfl, by simp⟩)
    | false =>
      cases hd : decode c with
      | error why => exact .inr (.inr (.inl ⟨c, why, rfl, rfl, hd, by simp [hd]⟩))
      | ok i => exact .inr (.inr (.inr ⟨c, i, rfl, rfl, hd, by simp [hd]⟩))

end Sys2Proof.Machine
end

