-- ==== Sys2Proof/Laws/PerInstr.lean ====
section
/-! SUPPORT. One lemma for each command: the byte the encoder writes has well-formed fields, those of the command's OP
and WSEL (spec 30 R71 to R77). -/

namespace Sys2Proof.Laws

/-- The fields of a command's byte are its OP, RSV = 0 and its WSEL, and they are well formed. -/
def EncodeFields.Statement (i : Instr) : Prop :=
  fieldsOf (encode i) = { op := opOf i, rsv := 0, wsel := wselOf i } ∧ (fieldsOf (encode i)).wellFormed = true

theorem EncodeFields.fsub : EncodeFields.Statement .fsub := ⟨by decide, by decide⟩
theorem EncodeFields.encb : EncodeFields.Statement .encb := ⟨by decide, by decide⟩
theorem EncodeFields.isone : EncodeFields.Statement .isone := ⟨by decide, by decide⟩
theorem EncodeFields.notGate : EncodeFields.Statement .notGate := ⟨by decide, by decide⟩
theorem EncodeFields.orGate : EncodeFields.Statement .orGate := ⟨by decide, by decide⟩
theorem EncodeFields.andGate : EncodeFields.Statement .andGate := ⟨by decide, by decide⟩
theorem EncodeFields.xorGate : EncodeFields.Statement .xorGate := ⟨by decide, by decide⟩
theorem EncodeFields.fa : EncodeFields.Statement .fa := ⟨by decide, by decide⟩
theorem EncodeFields.enc8 : EncodeFields.Statement .enc8 := ⟨by decide, by decide⟩
theorem EncodeFields.enc23 : EncodeFields.Statement .enc23 := ⟨by decide, by decide⟩
theorem EncodeFields.enc24 : EncodeFields.Statement .enc24 := ⟨by decide, by decide⟩
theorem EncodeFields.enc32 : EncodeFields.Statement .enc32 := ⟨by decide, by decide⟩
theorem EncodeFields.dec8 : EncodeFields.Statement .dec8 := ⟨by decide, by decide⟩
theorem EncodeFields.dec23 : EncodeFields.Statement .dec23 := ⟨by decide, by decide⟩
theorem EncodeFields.dec24 : EncodeFields.Statement .dec24 := ⟨by decide, by decide⟩
theorem EncodeFields.dec32 : EncodeFields.Statement .dec32 := ⟨by decide, by decide⟩
theorem EncodeFields.add8 : EncodeFields.Statement .add8 := ⟨by decide, by decide⟩
theorem EncodeFields.add23 : EncodeFields.Statement .add23 := ⟨by decide, by decide⟩
theorem EncodeFields.add24 : EncodeFields.Statement .add24 := ⟨by decide, by decide⟩
theorem EncodeFields.add32 : EncodeFields.Statement .add32 := ⟨by decide, by decide⟩
theorem EncodeFields.shr8 : EncodeFields.Statement .shr8 := ⟨by decide, by decide⟩
theorem EncodeFields.shr23 : EncodeFields.Statement .shr23 := ⟨by decide, by decide⟩
theorem EncodeFields.shr24 : EncodeFields.Statement .shr24 := ⟨by decide, by decide⟩
theorem EncodeFields.shr32 : EncodeFields.Statement .shr32 := ⟨by decide, by decide⟩
theorem EncodeFields.funpack : EncodeFields.Statement .funpack := ⟨by decide, by decide⟩
theorem EncodeFields.fpack : EncodeFields.Statement .fpack := ⟨by decide, by decide⟩
theorem EncodeFields.faddss : EncodeFields.Statement .faddss := ⟨by decide, by decide⟩

end Sys2Proof.Laws
end

