-- ==== Sys2Proof/Laws/Session.lean ====
section
/-! SUPPORT. What the host's operations can do: the record of a command, the state it goes on from, and placed lanes. -/

namespace Sys2Proof.Machine

/-- Every command gives the host a record, the DOMAIN_VIOLATION one if a lane was bad. -/
theorem answered_complete (i : Instr) (s : State) (r : Except BadLane Results) :
    answered (complete i s r) = some (match r with | .ok results => results | .error _ => raised .domainViolation) := by
  cases r <;> rfl

theorem answered_illegal (c : CmdByte) (why : DecodeError) : answered (illegal c why) = some (raised .illegalCommand) := rfl

/-- The state after a command differs from the state before it in the result ports alone. -/
theorem afterAnswer_complete (i : Instr) (s : State) (r : Except BadLane Results) :
    ∃ results, afterAnswer s (complete i s r) = s.withResults results := by
  cases r <;> exact ⟨_, rfl⟩

/-- Lane i of a port with words placed on its first lanes. -/
theorem overlayLanes_get (old : Vector Word 32) (ws : List Word) (i : Nat) (h : i < 32) :
    (overlayLanes old ws)[i] = ws.getD i old[i] := by simp [overlayLanes]

end Sys2Proof.Machine
end

