-- ==== Sys2Proof/Tests/Slice0.lean ====
section
/-! SUPPORT. Tests: the WellFormed smoke tests, every command's byte, vectors of spec 95, and for each statement with
hypotheses a state that meets them. Expected values are those of spec 95 and the tables of 30, 40 and 41. -/

namespace Sys2Proof.Tests

open Sys2Proof.Machine Sys2Proof.Safety

/-! ## WellFormed: an ill-formed term for each check -/

theorem test_rsv_set_is_refused : CmdFields.rsvClear { op := 1, rsv := 1, wsel := 0 } = false := by decide
theorem test_op_zero_is_refused : CmdFields.opDefined { op := 0, rsv := 0, wsel := 0 } = false := by decide
theorem test_op_sixteen_is_refused : CmdFields.opDefined { op := 16, rsv := 0, wsel := 0 } = false := by decide
theorem test_wsel_on_not_is_refused : CmdFields.widthSelectAllowed { op := 4, rsv := 0, wsel := 1 } = false := by decide
theorem test_wsel_on_enc_is_allowed : CmdFields.wellFormed { op := 9, rsv := 0, wsel := 3 } = true := by decide

/-! ## Decoding: each legal byte of 30 R75, written out as OP, RSV and WSEL -/

theorem test_decode_bit_layer :
    decode 0b00001000 = .ok .fsub ∧ decode 0b00010000 = .ok .encb ∧ decode 0b00011000 = .ok .isone := by decide
theorem test_decode_gates :
    decode 0b00100000 = .ok .notGate ∧ decode 0b00101000 = .ok .orGate ∧ decode 0b00110000 = .ok .andGate ∧
      decode 0b00111000 = .ok .xorGate ∧ decode 0b01000000 = .ok .fa := by decide
theorem test_decode_enc :
    decode 0b01001000 = .ok .enc8 ∧ decode 0b01001001 = .ok .enc23 ∧ decode 0b01001010 = .ok .enc24 ∧
      decode 0b01001011 = .ok .enc32 := by decide
theorem test_decode_dec :
    decode 0b01010000 = .ok .dec8 ∧ decode 0b01010001 = .ok .dec23 ∧ decode 0b01010010 = .ok .dec24 ∧
      decode 0b01010011 = .ok .dec32 := by decide
theorem test_decode_add :
    decode 0b01011000 = .ok .add8 ∧ decode 0b01011001 = .ok .add23 ∧ decode 0b01011010 = .ok .add24 ∧
      decode 0b01011011 = .ok .add32 := by decide
theorem test_decode_shr :
    decode 0b01100000 = .ok .shr8 ∧ decode 0b01100001 = .ok .shr23 ∧ decode 0b01100010 = .ok .shr24 ∧
      decode 0b01100011 = .ok .shr32 := by decide
theorem test_decode_floats :
    decode 0b01101000 = .ok .funpack ∧ decode 0b01110000 = .ok .fpack ∧ decode 0b01111000 = .ok .faddss := by decide

/-- The illegal bytes V-DEC-CMD-1 to 8 of 95 section 2.10, and the byte 0x21 of program P5. -/
theorem test_decode_illegal :
    decode 0x00 = .error (.reservedOp 0) ∧ decode 0x04 = .error .reservedBitSet ∧ decode 0x0C = .error .reservedBitSet ∧
      decode 0x09 = .error (.widthSelectNotZero 1 1) ∧ decode 0x4C = .error .reservedBitSet ∧
      decode 0x7B = .error (.widthSelectNotZero 15 3) ∧ decode 0x80 = .error (.reservedOp 16) ∧
      decode 0xFF = .error .reservedBitSet ∧ decode 0x21 = .error (.widthSelectNotZero 4 1) := by decide

theorem test_decode_table_word :
    decodeTableWord 8 0x5B = some .add32 ∧ decodeTableWord 8 0x00 = none ∧ decodeTableWord 16 0x5B = none ∧
      decodeTableWord 8 0x15B = none := by decide

/-! ## States for the tests -/

/-- Lane 0 of A_BITS and of B_BITS, and C_BIT; every other lane of A_BITS and B_BITS holds no domain pattern. -/
def laneState (a b c : Word) : State :=
  { State.reset with
    inp := { undrivenInputs with
      aBits := Vector.ofFn fun i => if i.val = 0 then a else 0x12345678
      bBits := Vector.ofFn fun i => if i.val = 0 then b else 0x12345678
      cBit := c } }

/-- The pattern of bit k of a number. -/
def bitWord (x k : Nat) : Word := if x.testBit k then 0x00000000 else 0x80000000

/-- Two soft integers on all 32 lanes. -/
def softState (a b : Nat) : State :=
  { State.reset with
    inp := { undrivenInputs with
      aBits := Vector.ofFn fun i => bitWord a i.val
      bBits := Vector.ofFn fun i => bitWord b i.val } }

/-- The same with one word placed on lane k of A_BITS. -/
def badLaneA (s : State) (k : Fin 32) (w : Word) : State :=
  { s with inp := { s.inp with aBits := s.inp.aBits.set k w } }

/-- The same with one word placed on lane k of B_BITS. -/
def badLaneB (s : State) (k : Fin 32) (w : Word) : State :=
  { s with inp := { s.inp with bBits := s.inp.bBits.set k w } }

/-- Two binary32 words on the SofterFloat lanes (43 R173, R175). -/
def floatState (wa wb : Word) : State :=
  { State.reset with
    inp := { undrivenInputs with
      aBits := Vector.ofFn fun i => floatLane wa i.val
      bBits := Vector.ofFn fun i => floatLane wb i.val } }

/-- A native word on A_WORD and a boolean on A_BOOL. -/
def wordState (w : Word) (b : BitVec 1) : State :=
  { State.reset with inp := { undrivenInputs with aWord := w, aBool := b } }

/-- The words R_BITS holds, lane 0 first. -/
def lanesOf (o : Host.Outcome State Fault Refusal) : Option (List Word) :=
  (answered o).map fun r => r.rBits.toList.filterMap id

def carryOf (o : Host.Outcome State Fault Refusal) : Option Word := (answered o).bind (·.rCo)
def wordOf (o : Host.Outcome State Fault Refusal) : Option Word := (answered o).bind (·.rWord)
def boolOf (o : Host.Outcome State Fault Refusal) : Option (BitVec 1) := (answered o).bind (·.rBool)
def statusOf (o : Host.Outcome State Fault Refusal) : Option Status := (answered o).bind (·.status)

/-- The bad lane a DOMAIN_VIOLATION names. -/
def badLaneOf : Host.Outcome State Fault Refusal → Option BadLane
  | .fault (.domainViolation _ bad _) => some bad
  | _ => none

/-- The words of the low bits of a number, lane 0 first. -/
def bitWords (n x : Nat) : List Word := (List.range n).map (bitWord x)

/-! ## Vectors of 95 sections 2.1 to 2.3 -/

theorem test_fsub_zero_minus_one :
    lanesOf (exec .fsub (laneState 0x80000000 0x00000000 0)) = some [0x80000000] := by decide
theorem test_fsub_bad_b :
    badLaneOf (exec .fsub (laneState 0x00000000 0xFFFFFFFF 0)) = some ⟨.bBits, 0, 0xFFFFFFFF⟩ := by decide
theorem test_encb_false : lanesOf (exec .encb (wordState 0 0)) = some [0x80000000] := by decide
theorem test_encb_ignores_lanes : lanesOf (exec .encb { laneState 0x12345678 0 0 with
    inp := { (laneState 0x12345678 0 0).inp with aBool := 1 } }) = some [0x00000000] := by decide
theorem test_isone_zero : boolOf (exec .isone (laneState 0x80000000 0 0)) = some 0 := by decide
theorem test_isone_subnormal :
    statusOf (exec .isone (laneState 0x00000001 0 0)) = some .domainViolation := by decide
theorem test_not_ignores_b : lanesOf (exec .notGate (laneState 0x80000000 0x3F800000 0)) = some [0x00000000] := by decide
theorem test_not_one : lanesOf (exec .notGate (laneState 0x00000000 0 0)) = some [0x80000000] := by decide
theorem test_or_zero_one : lanesOf (exec .orGate (laneState 0x80000000 0 0)) = some [0x00000000] := by decide
theorem test_or_zero_zero : lanesOf (exec .orGate (laneState 0x80000000 0x80000000 0)) = some [0x80000000] := by decide
theorem test_and_one_zero : lanesOf (exec .andGate (laneState 0 0x80000000 0)) = some [0x80000000] := by decide
theorem test_and_bad_a : badLaneOf (exec .andGate (laneState 0x7FC00000 0 0)) = some ⟨.aBits, 0, 0x7FC00000⟩ := by decide
theorem test_xor_one_one : lanesOf (exec .xorGate (laneState 0 0 0)) = some [0x80000000] := by decide
theorem test_xor_bad_b : badLaneOf (exec .xorGate (laneState 0 0x80000001 0)) = some ⟨.bBits, 0, 0x80000001⟩ := by decide
theorem test_fa_one_zero_one :
    lanesOf (exec .fa (laneState 0 0x80000000 0)) = some [0x80000000] ∧
      carryOf (exec .fa (laneState 0 0x80000000 0)) = some 0x00000000 := by decide
theorem test_fa_bad_c : badLaneOf (exec .fa (laneState 0 0 0x7F800000)) = some ⟨.cBit, 0, 0x7F800000⟩ := by decide

/-! ## Vectors of 95 sections 2.4 to 2.6 -/

theorem test_enc8_truncates : lanesOf (exec .enc8 (wordState 0x12345678 0)) = some (bitWords 8 0x78) := by decide
theorem test_enc8_23 : lanesOf (exec .enc8 (wordState 23 0)) =
    some [0, 0, 0, 0x80000000, 0, 0x80000000, 0x80000000, 0x80000000] := by decide
theorem test_enc23_drops_bit_23 : lanesOf (exec .enc23 (wordState 0x00800000 0)) = some (bitWords 23 0) := by decide
theorem test_enc24_keeps_bit_23 : lanesOf (exec .enc24 (wordState 0x00FFFFFF 0)) = some (bitWords 24 0xFFFFFF) := by decide
theorem test_enc32_top_bit : lanesOf (exec .enc32 (wordState 0x80000000 0)) = some (bitWords 32 0x80000000) := by decide
theorem test_dec8_ignores_lane_8 : wordOf (exec .dec8 (badLaneA (softState 0 0) 8 0x3F800000)) = some 0 := by decide
theorem test_dec8_42 : wordOf (exec .dec8 (softState 42 0)) = some 42 := by decide
theorem test_dec23_bad_lane :
    badLaneOf (exec .dec23 (badLaneA (softState 0x3FFFFF 0) 5 0x00000001)) = some ⟨.aBits, 5, 1⟩ := by decide
theorem test_dec24_top_lane : wordOf (exec .dec24 (softState 0x800000 0)) = some 0x00800000 := by decide
theorem test_dec32_all_ones : wordOf (exec .dec32 (softState 0xFFFFFFFF 0)) = some 0xFFFFFFFF := by decide
theorem test_add8_wraps :
    lanesOf (exec .add8 (softState 0xFF 0x01)) = some (bitWords 8 0) ∧
      carryOf (exec .add8 (softState 0xFF 0x01)) = some 0x00000000 := by decide
theorem test_add8_checks_a_first :
    badLaneOf (exec .add8 (badLaneA (badLaneB (softState 1 1) 0 0xFFFFFFFF) 3 0x3F800000)) =
      some ⟨.aBits, 3, 0x3F800000⟩ := by decide
theorem test_add23_no_carry :
    lanesOf (exec .add23 (softState 0x123456 0x654321)) = some (bitWords 23 0x777777) ∧
      carryOf (exec .add23 (softState 0x123456 0x654321)) = some 0x80000000 := by decide
theorem test_add24_wraps :
    lanesOf (exec .add24 (softState 0xFFFFFF 1)) = some (bitWords 24 0) ∧
      carryOf (exec .add24 (softState 0xFFFFFF 1)) = some 0x00000000 := by decide
theorem test_add32_wraps :
    lanesOf (exec .add32 (softState 0xFFFFFFFF 0xFFFFFFFF)) = some (bitWords 32 0xFFFFFFFE) ∧
      carryOf (exec .add32 (softState 0xFFFFFFFF 0xFFFFFFFF)) = some 0x00000000 := by decide
theorem test_shr8_81 : lanesOf (exec .shr8 (softState 0x81 0)) = some (bitWords 8 0x40) := by decide
theorem test_shr23_top : lanesOf (exec .shr23 (softState 0x400001 0)) = some (bitWords 23 0x200000) := by decide
theorem test_shr24_all : lanesOf (exec .shr24 (softState 0xFFFFFF 0)) = some (bitWords 24 0x7FFFFF) := by decide
theorem test_shr32_top : lanesOf (exec .shr32 (softState 0x80000001 0)) = some (bitWords 32 0x40000000) := by decide

/-! ## Vectors of 95 sections 2.8 and 2.9 -/

/-- V-PK-4: lane 31 ZERO, exponent 127, fraction 0. -/
theorem test_funpack_minus_one : lanesOf (exec .funpack (wordState 0xBF800000 0)) =
    some (bitWords 23 0 ++ bitWords 8 127 ++ [0x80000000]) := by decide
theorem test_fpack_nan : wordOf (exec .fpack (floatState 0x7FC00001 0)) = some 0x7FC00001 := by decide
theorem test_fpack_bad_sign_lane :
    badLaneOf (exec .fpack (badLaneA (floatState 0 0) 31 0x00000001)) = some ⟨.aBits, 31, 1⟩ := by decide

/-- V-FADD-1: lane 31 ONE, exponent 128, fraction 0x733333. -/
theorem test_faddss_source_example : lanesOf (exec .faddss (floatState 0x40000000 0x3FE66666)) =
    some (bitWords 23 0x733333 ++ bitWords 8 128 ++ [0x00000000]) := by decide +kernel

/-- Rows of 95 section 2.9, those of the unhandled cases in the second list. -/
theorem test_faddss_words :
    [(0x40000000, 0x3FE66666, 0x40733333), (0xBF800000, 0xBF800000, 0xC0000000), (0x3F800003, 0x3F800000, 0x40000001),
      (0x3F800000, 0x33C00000, 0x3F800000), (0x3F800000, 0x34000000, 0x3F800001), (0x00000001, 0x00800000, 0x00800000)].all
      (fun (v : Word × Word × Word) => fpack (addSameSign (funpack v.1) (funpack v.2.1)) == v.2.2) = true := by decide +kernel
theorem test_faddss_unhandled_words :
    [(0x00400000, 0x00400000, 0x00000000), (0x80000000, 0x80000000, 0x80000000), (0x7F800000, 0x7F800000, 0x00000000),
      (0x7F7FFFFF, 0x7F7FFFFF, 0x7FFFFFFF), (0x3FFFFFFF, 0x3F800001, 0x40400000), (0x00000001, 0x00000001, 0x00000002)].all
      (fun (v : Word × Word × Word) => fpack (addSameSign (funpack v.1) (funpack v.2.1)) == v.2.2) = true := by decide
theorem test_faddss_zeros_of_different_sign :
    statusOf (exec .faddss (floatState 0x00000000 0x80000000)) = some .unsupportedOperand ∧
      lanesOf (exec .faddss (floatState 0x00000000 0x80000000)) = some [] := by decide
theorem test_faddss_bad_lane_before_signs :
    badLaneOf (exec .faddss (badLaneA (floatState 0x3F800000 0xBF800000) 5 0x3F800000)) =
      some ⟨.aBits, 5, 0x3F800000⟩ := by decide

/-! ## One step, and the host -/

theorem test_step_runs_first_command :
    step (State.reset.withFetchWord 8 0x30) = exec .andGate (State.reset.withFetchWord 8 0x30) := rfl
theorem test_step_illegal_byte : step (State.reset.withFetchWord 8 0x21) =
    .fault (.illegalCommand 0x21 (.widthSelectNotZero 4 1) (raised .illegalCommand)) := rfl

/-- The line `%e = FADDSS %p, %n` of program P5: the error names nothing, and the host goes on. -/
theorem test_error_line_names_nothing :
    ((runLine { results := ["e"], command := .faddss, operands := [.named "p", .named "n"] }
      [("p", .lanes (floatState 0x3F800000 0).inp.aBits.toList), ("n", .lanes (floatState 0xBF800000 0).inp.aBits.toList)]
      State.reset).map fun r => (r.1.lookup "e", r.2.out.status)) = some (none, some .unsupportedOperand) := by decide

/-- `FA %x1, %y1, ZERO` puts its three Bits on A_BITS[0], B_BITS[0] and C_BIT (program P3). -/
theorem test_assembler_places_carry_in :
    ((assemble [] undrivenInputs { results := ["s", "c"], command := .fa, operands := [.bit .one, .bit .one, .bit .zero] }).map
      fun t => (t.cmd, t.inp.aBits[0], t.inp.bBits[0], t.inp.cBit)) = some (0x40, 0, 0, 0x80000000) := by decide

/-! ## Witnesses: a state that meets the hypotheses of each statement, clause by clause -/

theorem witness_StepRunsPresentedCommand :
    (State.reset.withFetchWord 8 0x78).inReset = false ∧ (State.reset.withFetchWord 8 0x78).cmd = some 0x78 ∧
      decode 0x78 = .ok .faddss := by decide

theorem witness_IdleStepChangesNothing : State.reset.cmd = none := rfl

theorem witness_CommandDuringResetIsStuck :
    (State.reset.withFetchWord 8 0x08).assertReset.cmd = some 0x08 ∧
      (State.reset.withFetchWord 8 0x08).assertReset.inReset = true := by decide

/-- One byte for each clause of 30 R77, the lowest and highest of each range, and legal bytes beside them. -/
theorem witness_IllegalByteFaults :
    (fieldsOf 0x00).op.toNat = 0 ∧ 0x10 ≤ (fieldsOf 0x80).op.toNat ∧ 0x10 ≤ (fieldsOf 0xFB).op.toNat ∧
      (fieldsOf 0x4C).rsv = 1 ∧
      ((fieldsOf 0x43).op.toNat ∉ [0x09, 0x0A, 0x0B, 0x0C] ∧ (fieldsOf 0x43).wsel ≠ 0) ∧
      ((fieldsOf 0x69).op.toNat ∉ [0x09, 0x0A, 0x0B, 0x0C] ∧ (fieldsOf 0x69).wsel ≠ 0) ∧
      decode 0x78 = .ok .faddss ∧ decode 0x63 = .ok .shr32 ∧ decode 0x48 = .ok .enc8 ∧
      (State.reset.withFetchWord 8 0x43).inReset = false ∧ (State.reset.withFetchWord 8 0x43).cmd = some 0x43 := by decide

/-- FSUB, OR, AND and XOR: good lanes, a bad lane A, and a bad lane B after a good lane A. -/
theorem witness_TwoBitCommand :
    (laneState (pat .zero) (pat .one) 0).inp.aBits[0] = pat .zero ∧
      (laneState (pat .zero) (pat .one) 0).inp.bBits[0] = pat .one ∧
      inDomain (laneState 0x00000001 0 0).inp.aBits[0] = false ∧
      inDomain (laneState 0x80000000 0x80000001 0).inp.aBits[0] = true ∧
      inDomain (laneState 0x80000000 0x80000001 0).inp.bBits[0] = false := by decide

theorem witness_FsubTableIsForced :
    fsub .zero .one = .zero ∧ fsub .zero .zero = .one ∧
      fsub .one (fsub .zero .zero) = .one ∧ fsub .zero (fsub .zero .zero) = .zero := by decide

theorem witness_IsoneAndNot :
    inDomain (laneState 0x80000000 0 0).inp.aBits[0] = true ∧ inDomain (laneState 0 0 0).inp.aBits[0] = true ∧
      (laneState (pat .one) 0 0).inp.aBits[0] = pat .one ∧ inDomain (laneState 0x3F800000 0 0).inp.aBits[0] = false := by
  decide

/-- A state whose lane 0 holds ENCB's result, and one whose A_BOOL holds ISONE's. -/
theorem witness_EncbIsoneAreInverse :
    (laneState 0x00000000 0 0).inp.aBits[0] = 0x00000000 ∧
      lanesOf (exec .encb (wordState 0 1)) = some [0x00000000] ∧
      (wordState 0 0).inp.aBool = 0 ∧ boolOf (exec .isone (laneState 0x80000000 0 0)) = some 0 := by decide

theorem witness_FullAdderAddsThreeBits :
    ((laneState (pat .one) (pat .zero) (pat .one)).inp.aBits[0] = pat .one ∧
      (laneState (pat .one) (pat .zero) (pat .one)).inp.bBits[0] = pat .zero ∧
      (laneState (pat .one) (pat .zero) (pat .one)).inp.cBit = pat .one) ∧
    inDomain (laneState 1 0 0).inp.aBits[0] = false ∧
    (inDomain (laneState 0 1 0).inp.aBits[0] = true ∧ inDomain (laneState 0 1 0).inp.bBits[0] = false) ∧
    (inDomain (laneState 0 0 1).inp.aBits[0] = true ∧ inDomain (laneState 0 0 1).inp.bBits[0] = true ∧
      inDomain (laneState 0 0 1).inp.cBit = false) := by decide

/-- The lowest and the highest lane of a width, and a width at the source's own. -/
theorem witness_EncodeDrivesWordBits : (0 < 1 ∧ 31 < 32) ∧ (23 ≤ Config.srcw ∧ 32 ≤ Config.srcw) := by decide

/-- Lanes 0..n-1 that carry a soft integer, at each width. -/
theorem witness_soft_operand :
    ∀ n ∈ [8, 23, 24, 32],
      Carries (softState 0xA5A5A5A5 0x5A5A5A5A).inp.aBits (encodeN 32 n 0xA5A5A5A5) ∧
      Carries (softState 0xA5A5A5A5 0x5A5A5A5A).inp.bBits (encodeN 32 n 0x5A5A5A5A) ∧
      (encodeN 32 n 0xA5A5A5A5).length = n ∧ (encodeN 32 n 0x5A5A5A5A).length = n := by decide

/-- A bad lane 0, and a bad lane 31 after 31 good ones, on A_BITS and on B_BITS. -/
theorem witness_bad_lane :
    (Carries (badLaneA (softState 5 0) 0 1).inp.aBits [] ∧
      (badLaneA (softState 5 0) 0 1).inp.aBits.toList[0]? = some 1 ∧ inDomain 1 = false) ∧
    (Carries (badLaneA (softState 5 0) 31 1).inp.aBits (encodeN 32 31 5) ∧ (encodeN 32 31 5).length = 31 ∧
      (badLaneA (softState 5 0) 31 1).inp.aBits.toList[31]? = some 1) ∧
    (Carries (badLaneB (softState 5 6) 0 1).inp.aBits (encodeN 32 32 5) ∧
      Carries (badLaneB (softState 5 6) 0 1).inp.bBits [] ∧
      (badLaneB (softState 5 6) 0 1).inp.bBits.toList[0]? = some 1) ∧
    (Carries (badLaneB (softState 5 6) 31 1).inp.aBits (encodeN 32 32 5) ∧
      Carries (badLaneB (softState 5 6) 31 1).inp.bBits (encodeN 32 31 6) ∧
      (badLaneB (softState 5 6) 31 1).inp.bBits.toList[31]? = some 1) := by decide

/-- The same at the last lane of the narrower widths. -/
theorem witness_bad_lane_of_width :
    ∀ k ∈ [(7 : Fin 32), 22, 23],
      (Carries (badLaneA (softState 5 0) k 1).inp.aBits (encodeN 32 k.val 5) ∧
        (badLaneA (softState 5 0) k 1).inp.aBits.toList[k.val]? = some 1) ∧
      (Carries (badLaneB (softState 5 6) k 1).inp.aBits (encodeN 32 (k.val + 1) 5) ∧
        Carries (badLaneB (softState 5 6) k 1).inp.bBits (encodeN 32 k.val 6) ∧
        (badLaneB (softState 5 6) k 1).inp.bBits.toList[k.val]? = some 1) := by decide

/-- The lanes ENC.8 drives for 0x78, on A_BITS of a second state. -/
theorem witness_DecodeOfEncodeIsModulo :
    lanesOf (exec .enc8 (wordState 0x12345678 0)) = some ((softState 0x78 0).inp.aBits.toList.take 8) ∧
      lanesOf (exec .enc32 (wordState 0x12345678 0)) = some ((softState 0x12345678 0).inp.aBits.toList.take 32) := by decide

theorem witness_AddThreadsTheCarry :
    ([.one, .one] : List Bit).length = ([.one, .zero] : List Bit).length ∧
      ([.one, .one] : List Bit)[1]? = some .one ∧ ([.one, .zero] : List Bit)[1]? = some .zero ∧
      ([.zero, .one, .one] : List Bit)[1]? = some (fullAdder .one .one .zero).2 := by decide

theorem witness_ShiftRightMovesLanes : 0 + 1 < 8 ∧ 6 + 1 < 8 ∧ 30 + 1 < 32 := by decide

theorem witness_SoftIntegerLawsAtEveryWidth :
    (7 < 2 ^ 3 ∧ 8 < 2 ^ 4 ∧ 3 ≤ 32) ∧ ([.one] : List Bit).length = ([.zero] : List Bit).length := by decide

/-- FPACK's operand, FUNPACK's lanes on a second state, and a word on a third. -/
theorem witness_FloatRoundTrip :
    lanesOf (exec .funpack (wordState 0xFF800000 0)) = some (floatState 0xFF800000 0).inp.aBits.toList ∧
      (∀ k : Fin 32, inDomain (floatState 0x807FFFFF 0).inp.aBits[k] = true) ∧
      wordOf (exec .fpack (floatState 0x807FFFFF 0)) = some (wordState 0x807FFFFF 0).inp.aWord := by decide

theorem witness_FpackAssemblesWord :
    Carries (floatState 0xBF800000 0).inp.aBits (toLanes (funpack 0xBF800000)) ∧
      (toLanes (funpack 0xBF800000)).length = 32 := by decide

theorem witness_FaddEqualsClosedForm :
    CarriesFloat (floatState 0x7F7FFFFF 0x00800000).inp.aBits 0x7F7FFFFF ∧
      CarriesFloat (floatState 0x7F7FFFFF 0x00800000).inp.bBits 0x00800000 ∧
      (0x7F7FFFFF#32).getLsbD 31 = (0x00800000#32).getLsbD 31 := by decide

theorem witness_FaddRefusesDifferentSigns :
    CarriesFloat (floatState 0x00000000 0x80000000).inp.aBits 0x00000000 ∧
      CarriesFloat (floatState 0x00000000 0x80000000).inp.bBits 0x80000000 ∧
      (0x00000000#32).getLsbD 31 ≠ (0x80000000#32).getLsbD 31 := by decide

theorem witness_TwoPlusOnePointEight :
    CarriesFloat (floatState 0x40000000 0x3FE66666).inp.aBits 0x40000000 ∧
      CarriesFloat (floatState 0x40000000 0x3FE66666).inp.bBits 0x3FE66666 := by decide

/-- Field lengths, and exponents 24 apart both ways. -/
theorem witness_alignment :
    (funpack 0x3F800000).exponent.length = 8 ∧ (funpack 0x3F800000).fraction.length = 23 ∧
      decodeN (funpack 0x33800000).exponent + 24 = decodeN (funpack 0x3F800000).exponent := by decide

theorem witness_PoliciesAgreeOnHandledCases : unhandledFadd (funpack 0x40000000) (funpack 0x3FE66666) = false := by
  decide +kernel

/-- The two outcomes: no bad lane, and a bad one. -/
theorem witness_CommandStopsExactlyAtFirstBadLane :
    firstBadLane (softState 1 1).inp (lanesRead .add8) = none ∧
      firstBadLane (badLaneB (softState 1 1) 7 1).inp (lanesRead .add8) = some ⟨.bBits, 7, 1⟩ := by decide

/-- A fault, an OK next state, and the one other next state. -/
theorem witness_NoOtherErrorExists :
    exec .notGate (laneState 1 0 0) = .fault (.domainViolation .notGate ⟨.aBits, 0, 1⟩ (raised .domainViolation)) ∧
      statusOf (exec .enc8 (wordState 0 0)) = some .ok ∧
      exec .faddss (floatState 0 0x80000000) = .next ((floatState 0 0x80000000).withResults (raised .unsupportedOperand)) :=
  ⟨rfl, by decide, rfl⟩

theorem witness_DrivenPortsFollowTheTable :
    exec .encb (wordState 0 1) = .next ((wordState 0 1).withResults (driveBits [.one])) ∧
      (driveBits [.one]).status = some .ok := ⟨rfl, rfl⟩

/-- Two states that differ on lane 8 and on A_WORD agree on all that DEC.8 reads. -/
theorem witness_AnswerDependsOnlyOnPortsRead :
    (∀ r ∈ lanesRead .dec8, laneWord (softState 42 0).inp r = laneWord (badLaneA (softState 42 0) 8 1).inp r) ∧
      readsWord .dec8 = false ∧ readsBool .dec8 = false ∧
      readsWord .enc8 = true ∧ (wordState 7 0).inp.aWord = (wordState 7 1).inp.aWord ∧
      readsBool .encb = true ∧ (wordState 7 1).inp.aBool = (wordState 8 1).inp.aBool := by decide

theorem witness_SessionAnswersEachCommandAlone : (laneState 0 0 0).inReset = false := rfl

/-- A state whose result ports are driven, and a command that goes on from it. -/
theorem witness_StepKeepsPortInvariant :
    PortInvariant (((wordState 0 1).withFetchWord 8 0x10).withResults (driveBits [.one])) ∧
      step (((wordState 0 1).withFetchWord 8 0x10).withResults (driveBits [.one])) =
        .next (((wordState 0 1).withFetchWord 8 0x10).withResults (driveBits [.one])) := by
  refine ⟨⟨⟨?_, by simp⟩, fun h => absurd rfl h⟩, rfl⟩
  intro i w h
  rw [State.withResults_out, Fin.getElem_fin, driveBits_rBits _ _ i.isLt] at h
  cases hb : ([.one] : List Bit)[i.val]? with
  | none => rw [hb] at h; cases h
  | some b => rw [hb] at h; cases h; cases b <;> decide

theorem witness_DrivenLanesAreDomainPatterns :
    answered (exec .encb (wordState 0 1)) = some (driveBits [.one]) := rfl

theorem witness_ErrorDrivesOnlyStatus :
    (State.reset.withFetchWord 8 0x04).inReset = false ∧ (State.reset.withFetchWord 8 0x04).cmd = some 0x04 ∧
      answered (step (State.reset.withFetchWord 8 0x04)) = some (raised .illegalCommand) := ⟨rfl, rfl, rfl⟩

theorem witness_CommandsAreIdempotent :
    step ((wordState 0 1).withFetchWord 8 0x10) =
        .next (((wordState 0 1).withFetchWord 8 0x10).withResults (driveBits [.one])) ∧
      ((wordState 0 1).withFetchWord 8 0x10).cmd ≠ none := ⟨rfl, by decide⟩

theorem witness_ResetsChangeNoAnswer : State.reset.inReset = false := rfl

theorem witness_AssemblerPlacesAddOperands :
    State.reset.inReset = false ∧ (encodeN 32 8 23).length = 8 ∧ (encodeN 32 8 19).length = 8 ∧
      ([("y", .lanes ((encodeN 32 8 19).map pat)), ("x", .lanes ((encodeN 32 8 23).map pat))] : HostEnv).lookup "x" =
        some (.lanes ((encodeN 32 8 23).map pat)) ∧
      ([("y", .lanes ((encodeN 32 8 19).map pat)), ("x", .lanes ((encodeN 32 8 23).map pat))] : HostEnv).lookup "y" =
        some (.lanes ((encodeN 32 8 19).map pat)) := by decide

end Sys2Proof.Tests
end

section
/-! SUPPORT. The ports as a state: what a step and the host's reads do to them (spec 10 R30, R37, R38; 70 R230). -/

namespace Sys2Proof.Proofs

open Sys2Proof.Machine Sys2Proof.Safety

/-- Every command ends in `complete`, so that driving its results is all it can do to the state (10 R37). The first case
holds the commands that read no lane, which have their results in every state (60 R204). -/
theorem exec_eq_complete (i : Instr) (s : State) : ∃ r, exec i s = complete i s r := by
  cases i with
  | encb | enc8 | enc23 | enc24 | enc32 | funpack => exact ⟨.ok _, rfl⟩
  | _ => exact ⟨_, rfl⟩

/-- The idle step keeps the record that is there; every other one puts a record in its place. -/
theorem afterAnswer_step (s : State) : ∃ r, afterAnswer s (step s) = s.withResults r := by
  obtain ⟨-, hs⟩ | ⟨c, -, -, hs⟩ | ⟨c, why, -, -, -, hs⟩ | ⟨c, i, -, -, -, hs⟩ := step_cases s
  case inl => exact ⟨s.out, by rw [hs]; rfl⟩
  case inr.inl => exact ⟨noValue, by rw [hs]; rfl⟩
  case inr.inr.inl => exact ⟨raised .illegalCommand, by rw [hs]; rfl⟩
  case inr.inr.inr =>
    obtain ⟨r, hr⟩ := exec_eq_complete i s
    rw [hs, hr]
    exact afterAnswer_complete i s r

theorem sameInputs_withResults (s : State) (r : Results) : SameInputs s (s.withResults r) := ⟨rfl, rfl, rfl⟩

theorem sameInputs_afterAnswer_step (s : State) : SameInputs s (afterAnswer s (step s)) := by
  obtain ⟨r, hr⟩ := afterAnswer_step s
  rw [hr]
  exact sameInputs_withResults s r

/-- A next state is what the host goes on from, so it is framed as any answer is. -/
theorem sameInputs_of_step_next (s t : State) (h : step s = .next t) : SameInputs s t := by
  have ht := sameInputs_afterAnswer_step s
  rwa [h] at ht

/-- What a host read does with a port that holds no value (10 R37). -/
theorem orUndriven_none_map {α : Type} (p : ResultPort) (f : α → Nat) :
    (orUndriven p none).map f = .error (.undrivenPort p) := rfl

/-- What a host read does with a port that holds a value (10 R37). -/
theorem orUndriven_some_map {α : Type} (p : ResultPort) (x : α) (f : α → Nat) :
    (orUndriven p (some x)).map f = .ok (f x) := rfl

theorem hostRead_of_out_eq_noValue (s : State) (h : s.out = noValue) (p : ResultPort) :
    hostRead s p = .error (.undrivenPort p) := by
  cases p with
  | rBits k =>
    rw [hostRead, h, Fin.getElem_fin, noValue_rBits k k.isLt, orUndriven_none_map]
  | rCo | rWord | rBool | status =>
    rw [hostRead, h]
    exact orUndriven_none_map _ _

theorem closed_noValue : Closed noValue :=
  ⟨fun i w h => by simp at h, fun w h => by simp at h⟩

theorem errorsDriveNothing_noValue : ErrorsDriveNothing noValue :=
  fun _ => ⟨fun i => noValue_rBits i i.isLt, rfl, rfl, rfl⟩

/-- Settles O45: a step and the host's going on from it are a `withResults` of the state. -/
theorem stepWritesOnlyResultPorts : Obligations.StepWritesOnlyResultPorts :=
  fun s => ⟨sameInputs_of_step_next s, sameInputs_afterAnswer_step s⟩

/-- Settles O2, by the cases of a step: each but the idle one has a byte on CMD. -/
theorem idleStepChangesNothing : Obligations.IdleStepChangesNothing := by
  intro s hcmd
  obtain ⟨-, hs⟩ | ⟨c, hc, -⟩ | ⟨c, why, hc, -⟩ | ⟨c, i, hc, -⟩ := step_cases s
  case inl => exact hs
  all_goals
    rw [hcmd] at hc
    cases hc

/-- Settles O7: the record after reset is `noValue`. -/
theorem resetClearsResultPorts : Obligations.ResetClearsResultPorts :=
  ⟨hostRead_of_out_eq_noValue State.reset rfl,
    fun s => ⟨hostRead_of_out_eq_noValue s.assertReset.releaseReset rfl, rfl, rfl⟩⟩

/-- Settles O41: the record after reset is `noValue`, which drives no lane. -/
theorem resetHasPortInvariant : Obligations.ResetHasPortInvariant := ⟨closed_noValue, errorsDriveNothing_noValue⟩

/-- Settles O48: a host read is `orUndriven` of its port, which either holds a value or holds none. -/
theorem undrivenPortReadFaults : Obligations.UndrivenPortReadFaults := by
  intro s
  refine ⟨fun k => ?_, ?_, ?_, ?_, ?_⟩
  all_goals
    rw [hostRead]
    split
    next hv => rw [hv, orUndriven_none_map]
    next hv => rw [hv, orUndriven_some_map]

end Sys2Proof.Proofs
end

section
/-! SUPPORT. A command shares no state with the one before it: its record is a function of CMD and the operand ports
(spec 20 R55, R58; 60 R208). -/

namespace Sys2Proof.Proofs

open Sys2Proof.Machine Sys2Proof.Safety

/-- The one step equation that gives a command its meaning: a legal byte out of reset. -/
theorem step_of_decode_ok {s : State} {c : CmdByte} {i : Instr} (hcmd : s.cmd = some c) (hreset : s.inReset = false)
    (hdecode : decode c = .ok i) : step s = exec i s := by
  simp [step, hcmd, hreset, hdecode]

theorem step_of_decode_error {s : State} {c : CmdByte} {why : DecodeError} (hcmd : s.cmd = some c)
    (hreset : s.inReset = false) (hdecode : decode c = .error why) : step s = illegal c why := by
  simp [step, hcmd, hreset, hdecode]

theorem step_of_inReset {s : State} {c : CmdByte} (hcmd : s.cmd = some c) (hreset : s.inReset = true) :
    step s = .fault (.commandDuringReset c) := by
  simp [step, hcmd, hreset]

/-- Two states with the same operand ports complete a command with the same results or the same bad lane: no command reads
a result port, CMD or the reset condition (20 R58). The first case holds the commands that read no lane (60 R204). -/
theorem exec_eq_complete_of_inp_eq (i : Instr) {s s' : State} (h : s'.inp = s.inp) :
    ∃ r, exec i s = complete i s r ∧ exec i s' = complete i s' r := by
  obtain ⟨inReset, cmd, inp, out⟩ := s
  obtain ⟨inReset', cmd', inp', out'⟩ := s'
  obtain rfl : inp' = inp := h
  cases i with
  | encb | enc8 | enc23 | enc24 | enc32 | funpack => exact ⟨.ok _, rfl, rfl⟩
  | _ => exact ⟨_, rfl, rfl⟩

theorem answered_exec_of_inp_eq (i : Instr) {s s' : State} (h : s'.inp = s.inp) :
    answered (exec i s') = answered (exec i s) := by
  obtain ⟨r, hs, hs'⟩ := exec_eq_complete_of_inp_eq i h
  rw [hs, hs', answered_complete, answered_complete]

/-- With a command presented, the record is a function of the ports in: what the result ports hold has no part in it. -/
theorem answered_step_of_sameInputs {s s' : State} (h : SameInputs s s') (hcmd : s.cmd ≠ none) :
    answered (step s') = answered (step s) := by
  obtain ⟨hcmd', hinp', hreset'⟩ := h
  obtain ⟨hc, -⟩ | ⟨c, hc, hr, hs⟩ | ⟨c, why, hc, hr, hd, hs⟩ | ⟨c, i, hc, hr, hd, hs⟩ := step_cases s
  case inl => exact absurd hc hcmd
  case inr.inl => rw [hs, step_of_inReset (hcmd'.trans hc) (hreset'.trans hr)]
  case inr.inr.inl => rw [hs, step_of_decode_error (hcmd'.trans hc) (hreset'.trans hr) hd]
  case inr.inr.inr =>
    rw [hs, step_of_decode_ok (hcmd'.trans hc) (hreset'.trans hr) hd]
    exact answered_exec_of_inp_eq i hinp'

/-- A command that goes on has driven its results, and driving them again puts the same record in their place. -/
theorem exec_idempotent (i : Instr) {s t : State} (h : exec i s = .next t) : exec i t = .next t := by
  obtain ⟨r, hr⟩ := exec_eq_complete i s
  obtain ⟨results, -, rfl⟩ := (complete_next_iff i s t r).mp (hr ▸ h)
  obtain ⟨q, hs, ht⟩ := exec_eq_complete_of_inp_eq i (State.withResults_inp s results)
  obtain ⟨driven, rfl, heq⟩ := (complete_next_iff i s _ q).mp (hs ▸ h)
  rw [ht, complete_next_iff]
  exact ⟨driven, rfl, by rw [heq, State.withResults_twice]⟩

theorem step_idempotent {s t : State} (h : step s = .next t) : step t = .next t := by
  obtain ⟨-, hs⟩ | ⟨c, -, -, hs⟩ | ⟨c, why, -, -, -, hs⟩ | ⟨c, i, hc, hr, hd, hs⟩ := step_cases s
  case inl =>
    obtain rfl : s = t := by simpa [hs] using h
    exact h
  case inr.inl => simp [hs] at h
  case inr.inr.inl => simp [hs, illegal] at h
  case inr.inr.inr =>
    obtain ⟨hcmd, -, hreset⟩ := sameInputs_of_step_next s t h
    rw [step_of_decode_ok (hcmd.trans hc) (hreset.trans hr) hd]
    exact exec_idempotent i (hs ▸ h)

/-- A transaction is answered alike by any two states that agree on the reset condition (20 R58). -/
theorem answered_step_present {s s' : State} (t : Transaction) (h : s'.inReset = s.inReset) :
    answered (step (s'.present t)) = answered (step (s.present t)) :=
  answered_step_of_sameInputs (s := s.present t) ⟨rfl, rfl, h⟩ (Option.some_ne_none t.cmd)

/-- Serving a transaction, whatever its answer, neither asserts nor releases reset. -/
theorem serve_inReset (t : Transaction) (s : State) : (serve t s).2.inReset = s.inReset := by
  obtain ⟨-, -, hreset⟩ := sameInputs_afterAnswer_step (s.present t)
  exact hreset

/-- Settles O39, by induction on the transactions: each is answered as right after reset, and leaves a state out of reset
for the rest. -/
theorem sessionAnswersEachCommandAlone : Obligations.SessionAnswersEachCommandAlone := by
  intro ts
  induction ts with
  | nil => exact fun s _ => rfl
  | cons t ts ih =>
    intro s hs
    have hfirst : (serve t s).1 = answered (step (State.reset.present t)) := answered_step_present t hs
    have hrest := ih (serve t s).2 ((serve_inReset t s).trans hs)
    rw [session, hfirst, hrest, List.map_cons]

/-- Settles O46: a step reads the ports in alone and changes none of them. -/
theorem commandsAreIdempotent : Obligations.CommandsAreIdempotent :=
  ⟨fun s t h => ⟨sameInputs_of_step_next s t h, step_idempotent h⟩,
    fun s r hcmd => answered_step_of_sameInputs (sameInputs_withResults s r) hcmd⟩

end Sys2Proof.Proofs
end

section
/-! SUPPORT. The decoder and the encoder: a byte is its fields, and the fields that decode are those of the 27 commands
(spec 30 R71 to R78). -/

namespace Sys2Proof.Proofs

open Sys2Proof.Machine Sys2Proof.Safety

/-- The byte with given fields (30 R71). -/
def byteOf (f : CmdFields) : CmdByte := f.op ++ f.rsv ++ f.wsel

/-- The fields of a command's byte (30 R74 to R76). -/
def commandFields (i : Instr) : CmdFields := { op := opOf i, rsv := 0, wsel := wselOf i }

theorem encode_eq_byteOf (i : Instr) : encode i = byteOf (commandFields i) := rfl

theorem byteOf_fieldsOf (c : CmdByte) : byteOf (fieldsOf c) = c := by
  have hhigh : c.extractLsb' 3 5 ++ c.extractLsb' 2 1 = c.extractLsb' 2 6 :=
    BitVec.extractLsb'_append_extractLsb'_eq_extractLsb' rfl
  show c.extractLsb' 3 5 ++ c.extractLsb' 2 1 ++ c.extractLsb' 0 2 = c
  rw [hhigh]
  exact BitVec.extractLsb'_append_extractLsb' (w := 6) (len := 2)

theorem fieldsOf_byteOf (f : CmdFields) : fieldsOf (byteOf f) = f := by
  obtain ⟨op, rsv, wsel⟩ := f
  have hop : (op ++ rsv ++ wsel).extractLsb' 3 5 = op :=
    (BitVec.extractLsb'_append_eq_of_le (by decide)).trans BitVec.extractLsb'_append_eq_left
  have hrsv : (op ++ rsv ++ wsel).extractLsb' 2 1 = rsv :=
    (BitVec.extractLsb'_append_eq_of_le (by decide)).trans BitVec.extractLsb'_append_eq_right
  have hwsel : (op ++ rsv ++ wsel).extractLsb' 0 2 = wsel := BitVec.extractLsb'_append_eq_right
  show CmdFields.mk _ _ _ = _
  rw [CmdFields.mk.injEq]
  exact ⟨hop, hrsv, hwsel⟩

/-- Each operation of a width has its own OP, and WSEL selects the width (30 R73, R74). -/
theorem fields_of_widthOperation {op : BitVec 5} {wsel : BitVec 2} {i : Instr}
    (h : widthOperation op (widthOf wsel) = some i) : opOf i = op ∧ wselOf i = wsel := by
  have hwsel : ∀ w : BitVec 2, wselOf (.encOf (widthOf w)) = w ∧ wselOf (.decOf (widthOf w)) = w ∧
      wselOf (.addOf (widthOf w)) = w ∧ wselOf (.shrOf (widthOf w)) = w := by decide
  obtain ⟨henc, hdec, hadd, hshr⟩ := hwsel wsel
  have hop : ∀ n : Width, opOf (.encOf n) = 0x09 ∧ opOf (.decOf n) = 0x0A ∧ opOf (.addOf n) = 0x0B ∧
      opOf (.shrOf n) = 0x0C := by
    intro n
    cases n <;> decide
  obtain ⟨oenc, odec, oadd, oshr⟩ := hop (widthOf wsel)
  unfold widthOperation at h
  split at h
  next ho => cases h; exact ⟨oenc.trans (BitVec.eq_of_toNat_eq ho.symm), henc⟩
  next ho => cases h; exact ⟨odec.trans (BitVec.eq_of_toNat_eq ho.symm), hdec⟩
  next ho => cases h; exact ⟨oadd.trans (BitVec.eq_of_toNat_eq ho.symm), hadd⟩
  next ho => cases h; exact ⟨oshr.trans (BitVec.eq_of_toNat_eq ho.symm), hshr⟩
  next => cases h

/-- Each operation without a width has its own OP, and WSEL = 0b00 (30 R74, R77). -/
theorem fields_of_plainOperation {op : BitVec 5} {i : Instr} (h : plainOperation op = some i) :
    opOf i = op ∧ wselOf i = 0 := by
  unfold plainOperation at h
  split at h
  case h_12 => cases h
  all_goals
    rename_i ho
    cases h
    exact ⟨BitVec.eq_of_toNat_eq ho.symm, rfl⟩

theorem decodeFields_commandFields (i : Instr) : decodeFields (commandFields i) = .ok i := by
  cases i <;> rfl

/-- Fields decode to a command exactly when they are the command's. -/
theorem decodeFields_eq_ok_iff (f : CmdFields) (i : Instr) : decodeFields f = .ok i ↔ f = commandFields i := by
  constructor
  · intro h
    obtain ⟨op, rsv, wsel⟩ := f
    unfold decodeFields at h
    split at h
    next => cases h
    next hrsv =>
      obtain rfl : rsv = 0 := not_not.mp hrsv
      split at h
      next hw =>
        cases h
        obtain ⟨rfl, rfl⟩ := fields_of_widthOperation hw
        rfl
      next =>
        split at h
        next hp =>
          split at h
          next => cases h
          next hwsel =>
            cases h
            obtain ⟨rfl, hzero⟩ := fields_of_plainOperation hp
            obtain rfl : wsel = 0 := not_not.mp hwsel
            rw [commandFields, hzero]
        next => cases h
  · rintro rfl
    exact decodeFields_commandFields i

/-- Settles O5: a byte and its fields determine each other, and the fields that decode are the commands'. -/
theorem decodeInvertsEncode : Obligations.DecodeInvertsEncode := by
  intro c i
  rw [decode, decodeFields_eq_ok_iff, encode_eq_byteOf]
  exact ⟨fun h => h ▸ byteOf_fieldsOf c, fun h => h ▸ fieldsOf_byteOf (commandFields i)⟩

theorem decode_encode (i : Instr) : decode (encode i) = .ok i := (decodeInvertsEncode (encode i) i).mpr rfl

theorem fieldsOf_of_decode_ok {c : CmdByte} {i : Instr} (h : decode c = .ok i) : fieldsOf c = commandFields i :=
  (decodeFields_eq_ok_iff (fieldsOf c) i).mp h

theorem encode_injective : Function.Injective encode := by
  intro i j h
  have hij : Except.ok i = Except.ok j := (decode_encode i).symm.trans ((congrArg decode h).trans (decode_encode j))
  exact Except.ok.inj hij

/-- The commands, in the order of the list of 30 R75. -/
def commands : List Instr :=
  [.fsub, .encb, .isone, .notGate, .orGate, .andGate, .xorGate, .fa, .enc8, .enc23, .enc24, .enc32,
    .dec8, .dec23, .dec24, .dec32, .add8, .add23, .add24, .add32, .shr8, .shr23, .shr24, .shr32,
    .funpack, .fpack, .faddss]

theorem mem_commands (i : Instr) : i ∈ commands := by cases i <;> decide

theorem commands_nodup : commands.Nodup := by decide

/-- The list of 30 R75 is what the encoder and the mnemonics give. -/
theorem legalBytes_eq : legalBytes = commands.map fun i => (encode i, i.mnemonic) := rfl

theorem mem_legalBytes_iff (c : CmdByte) (m : String) :
    (c, m) ∈ legalBytes ↔ ∃ i, encode i = c ∧ i.mnemonic = m := by
  simp [legalBytes_eq, mem_commands]

/-- A byte with RSV = 0 is `(OP << 3) | WSEL` (30 R75). -/
theorem toNat_of_rsv_zero (c : CmdByte) (h : (fieldsOf c).rsv = 0) :
    c.toNat = ((fieldsOf c).op.toNat <<< 3 ||| (fieldsOf c).wsel.toNat) := by
  calc c.toNat = (byteOf (fieldsOf c)).toNat := by rw [byteOf_fieldsOf]
    _ = ((fieldsOf c).op.toNat <<< 1 ||| (fieldsOf c).rsv.toNat) <<< 2 ||| (fieldsOf c).wsel.toNat := by
      rw [byteOf, BitVec.toNat_append, BitVec.toNat_append]
    _ = (fieldsOf c).op.toNat <<< 3 ||| (fieldsOf c).wsel.toNat := by
      rw [h, show (0 : BitVec 1).toNat = 0 from rfl, Nat.or_zero, ← Nat.shiftLeft_add]

/-- Settles O4: the list is the encoder's, which the decoder inverts. -/
theorem legalBytesAreTheTable : Obligations.LegalBytesAreTheTable := by
  refine ⟨fun c m => ?_, fun c i h => ?_, rfl, ?_⟩
  · rw [mem_legalBytes_iff]
    exact exists_congr fun i => and_congr_left' (decodeInvertsEncode c i)
  · have hrsv : (fieldsOf c).rsv = 0 := by rw [fieldsOf_of_decode_ok h]; rfl
    exact ⟨hrsv, toNat_of_rsv_zero c hrsv⟩
  · rw [legalBytes_eq, List.map_map]
    exact commands_nodup.map encode_injective

/-- The fields of the bytes that 30 R77 lists as illegal. -/
def IllegalFields (f : CmdFields) : Prop :=
  f.op.toNat = 0 ∨ 0x10 ≤ f.op.toNat ∨ f.rsv = 1 ∨ (f.op.toNat ∉ [0x09, 0x0A, 0x0B, 0x0C] ∧ f.wsel ≠ 0)

/-- No command's fields are among them. -/
theorem not_illegalFields_commandFields (i : Instr) : ¬ IllegalFields (commandFields i) := by
  unfold IllegalFields
  cases i <;> decide

theorem widthOperation_eq_none {op : BitVec 5} {n : Width} (h : widthOperation op n = none) :
    op.toNat ∉ [0x09, 0x0A, 0x0B, 0x0C] := by
  unfold widthOperation at h
  split at h
  case h_5 h9 hA hB hC =>
    simp only [List.mem_cons, not_or]
    exact ⟨h9, hA, hB, hC, List.not_mem_nil⟩
  all_goals cases h

/-- An OP that names no operation is 0x00 or one of 0x10 to 0x1F (30 R77). -/
theorem plainOperation_eq_none {op : BitVec 5} (h : plainOperation op = none)
    (hwidth : op.toNat ∉ [0x09, 0x0A, 0x0B, 0x0C]) : op.toNat = 0 ∨ 0x10 ≤ op.toNat := by
  simp only [List.mem_cons, List.not_mem_nil, or_false] at hwidth
  unfold plainOperation at h
  split at h
  case h_12 =>
    simp only [imp_false] at *
    omega
  all_goals cases h

/-- The checks of 30 R78 fail on the fields of 30 R77 alone. -/
theorem illegalFields_of_decodeFields_error {f : CmdFields} {why : DecodeError} (h : decodeFields f = .error why) :
    IllegalFields f := by
  unfold decodeFields at h
  split at h
  next hrsv => exact .inr (.inr (.inl ((BitVec.eq_zero_or_eq_one f.rsv).resolve_left hrsv)))
  next =>
    split at h
    next => cases h
    next hw =>
      have hop := widthOperation_eq_none hw
      split at h
      next =>
        split at h
        next hwsel => exact .inr (.inr (.inr ⟨hop, hwsel⟩))
        next => cases h
      next hp =>
        obtain hlow | hhigh := plainOperation_eq_none hp hop
        · exact .inl hlow
        · exact .inr (.inl hhigh)

/-- A byte decodes to a command exactly when 30 R77 does not list it. -/
theorem decode_ok_iff (c : CmdByte) : (∃ i, decode c = .ok i) ↔ ¬ IllegalFields (fieldsOf c) := by
  constructor
  · rintro ⟨i, h⟩
    rw [fieldsOf_of_decode_ok h]
    exact not_illegalFields_commandFields i
  · intro h
    cases hd : decode c with
    | ok i => exact ⟨i, rfl⟩
    | error why => exact absurd (illegalFields_of_decodeFields_error hd) h

theorem onlyStatus_raised (st : Status) : OnlyStatus (raised st) st :=
  ⟨fun k => raised_rBits st k k.isLt, rfl, rfl, rfl, rfl⟩

/-- Settles O6: the bytes of 30 R77 are those that do not decode, and the step faults on them before `exec`. -/
theorem illegalByteFaults : Obligations.IllegalByteFaults := by
  intro s c hreset hcmd
  have hlegal := decode_ok_iff c
  split
  next hbad =>
    cases hd : decode c with
    | ok i => exact absurd hbad (hlegal.mp ⟨i, hd⟩)
    | error why =>
      exact ⟨why, raised .illegalCommand, step_of_decode_error hcmd hreset hd, onlyStatus_raised .illegalCommand⟩
  next hgood =>
    obtain ⟨i, hd⟩ := hlegal.mpr hgood
    exact ⟨i, hd, step_of_decode_ok hcmd hreset hd⟩

/-- Settles O1: `step` stands around `exec` with nothing but the checks of CMD and reset. -/
theorem stepRunsPresentedCommand : Obligations.StepRunsPresentedCommand :=
  fun _ _ _ hreset hcmd hdecode => step_of_decode_ok hcmd hreset hdecode

end Sys2Proof.Proofs
end

section
/-! SUPPORT. What a command drives, and what its answer depends on: the port use of spec 30 R81, command by command. -/

namespace Sys2Proof.Proofs

open Sys2Proof.Machine Sys2Proof.Safety

/-- A read followed by the rest of a command gives a result exactly when both do. -/
theorem read_bind_eq_ok_iff {α β : Type} {x : Except BadLane α} {f : α → Except BadLane β} {r : β} :
    (x >>= f) = .ok r ↔ ∃ a, x = .ok a ∧ f a = .ok r := by
  cases x with
  | error bad => exact ⟨nofun, nofun⟩
  | ok a => exact ⟨fun h => ⟨a, rfl, h⟩, fun ⟨_, rfl, h⟩ => h⟩

/-- A command that reads no lane always goes on. -/
theorem complete_no_read_next_iff (i : Instr) (s t : State) (r : Results) :
    complete i s (.ok r) = .next t ↔ t = s.withResults r := by
  simp [complete_next_iff]

/-- When a command of one lane operand goes on, and with what record. -/
theorem complete_one_read_next_iff {α : Type} (i : Instr) (s t : State) (x : Except BadLane α) (f : α → Results) :
    (complete i s do
      let a ← x
      return f a) = .next t ↔ ∃ a, x = .ok a ∧ t = s.withResults (f a) := by
  simp [complete_next_iff, read_bind_eq_ok_iff, pure, Except.pure]

/-- When a command of two lane operands goes on, and with what record. -/
theorem complete_two_reads_next_iff {α β : Type} (i : Instr) (s t : State) (x : Except BadLane α)
    (y : Except BadLane β) (f : α → β → Results) :
    (complete i s do
      let a ← x
      let b ← y
      return f a b) = .next t ↔ ∃ a b, x = .ok a ∧ y = .ok b ∧ t = s.withResults (f a b) := by
  simp [complete_next_iff, read_bind_eq_ok_iff, pure, Except.pure]

/-- When a command of three lane operands goes on, and with what record. -/
theorem complete_three_reads_next_iff {α β γ : Type} (i : Instr) (s t : State) (x : Except BadLane α)
    (y : Except BadLane β) (z : Except BadLane γ) (f : α → β → γ → Results) :
    (complete i s do
      let a ← x
      let b ← y
      let c ← z
      return f a b c) = .next t ↔ ∃ a b c, x = .ok a ∧ y = .ok b ∧ z = .ok c ∧ t = s.withResults (f a b c) := by
  simp [complete_next_iff, read_bind_eq_ok_iff, pure, Except.pure, and_assoc]

/-- The port use of a record: how many lanes of R_BITS hold a value, and whether R_CO, R_WORD and R_BOOL do. -/
def PortUse (r : Results) (lanes : Nat) (carry word bool : Bool) : Prop :=
  (∀ k : Fin 32, r.rBits[k].isSome = decide (k.val < lanes)) ∧
    r.rCo.isSome = carry ∧ r.rWord.isSome = word ∧ r.rBool.isSome = bool

theorem isSome_lane_map_pat (bs : List Bit) (k : Nat) : (bs[k]?.map pat).isSome = decide (k < bs.length) := by
  by_cases hk : k < bs.length <;> simp [hk]

theorem portUse_driveBits (bs : List Bit) : PortUse (driveBits bs) bs.length false false false := by
  refine ⟨fun k => ?_, rfl, rfl, rfl⟩
  rw [Fin.getElem_fin, driveBits_rBits bs k k.isLt, isSome_lane_map_pat]

theorem portUse_driveBitsAndCarry (bs : List Bit) (c : Bit) :
    PortUse (driveBitsAndCarry bs c) bs.length true false false := by
  refine ⟨fun k => ?_, rfl, rfl, rfl⟩
  rw [Fin.getElem_fin, driveBitsAndCarry_rBits bs c k k.isLt, isSome_lane_map_pat]

theorem portUse_driveWord (w : Word) : PortUse (driveWord w) 0 false true false :=
  ⟨fun k => by rw [Fin.getElem_fin, driveWord_rBits w k k.isLt]; rfl, rfl, rfl, rfl⟩

theorem portUse_driveBool (b : BitVec 1) : PortUse (driveBool b) 0 false false true :=
  ⟨fun k => by rw [Fin.getElem_fin, driveBool_rBits b k k.isLt]; rfl, rfl, rfl, rfl⟩

theorem length_of_take_eq_map_pat {lanes : Vector Word 32} {n : Nat} {bs : List Bit}
    (h : lanes.toList.take n = bs.map pat) : bs.length = min n 32 := by
  simpa using (congrArg List.length h).symm

theorem softOperandA_length {n : Nat} {s : State} {bs : List Bit} (h : softOperandA n s = .ok bs) :
    bs.length = min n 32 := length_of_take_eq_map_pat ((softOperandA_ok_iff n s bs).mp h)

theorem softOperandB_length {n : Nat} {s : State} {bs : List Bit} (h : softOperandB n s = .ok bs) :
    bs.length = min n 32 := length_of_take_eq_map_pat ((softOperandB_ok_iff n s bs).mp h)

theorem ofLanes_fraction_length {l : List Bit} (h : l.length = 32) : (ofLanes l).fraction.length = 23 := by
  simp [ofLanes, h]

theorem floatOperandA_fraction_length {s : State} {x : SofterFloat} (h : floatOperandA s = .ok x) :
    x.fraction.length = 23 := by
  obtain ⟨bs, hbs, rfl⟩ := (floatOperandA_ok_iff s x).mp h
  exact ofLanes_fraction_length (length_of_take_eq_map_pat hbs)

theorem floatOperandB_fraction_length {s : State} {x : SofterFloat} (h : floatOperandB s = .ok x) :
    x.fraction.length = 23 := by
  obtain ⟨bs, hbs, rfl⟩ := (floatOperandB_ok_iff s x).mp h
  exact ofLanes_fraction_length (length_of_take_eq_map_pat hbs)

/-- The sum of two softer floats fills the 32 lanes: an 8-lane exponent, and the 24-lane sum without its top lane
(43 R186). -/
theorem addSameSign_lanes_length {a b : SofterFloat} (ha : a.fraction.length = 23) (hb : b.fraction.length = 23) :
    (toLanes (addSameSign a b)).length = 32 := by
  obtain ⟨hleft, hright⟩ := align_length a b (ha.trans hb.symm)
  refine toLanes_length _ (encodeN_length _ _ _) ?_
  show (List.take 23 (addAligned _ _ _).1).length = 23
  rw [List.length_take, addAligned_length, hleft, hright, ha]
  rfl

/-- FADDSS with STATUS = OK drives its 32 lanes; on different signs STATUS is not OK (43 R181). -/
theorem portUse_faddResults {a b : SofterFloat} (ha : a.fraction.length = 23) (hb : b.fraction.length = 23)
    (hok : (faddResults Config.unhandledFaddPolicy a b).status = some .ok) :
    PortUse (faddResults Config.unhandledFaddPolicy a b) 32 false false false := by
  unfold faddResults at hok ⊢
  split at hok
  next => cases hok
  next hsign =>
    rw [if_neg hsign, ← addSameSign_lanes_length ha hb]
    exact portUse_driveBits _

/-- FUNPACK drives the 32 lanes of the bus (43 R170). -/
theorem portUse_funpack (w : Word) : PortUse (driveBits (toLanes (funpack w))) 32 false false false := by
  have huse := portUse_driveBits (toLanes (funpack w))
  rwa [toLanes_length _ (funpack_exponent_length w) (funpack_fraction_length w)] at huse

theorem encodeCommand_portUse (i : Instr) {n : Nat} {s t : State} (h : encodeCommand i n s = .next t) :
    PortUse t.out n false false false := by
  obtain rfl := (complete_no_read_next_iff i s t _).mp h
  have huse := portUse_driveBits (encodeN Config.srcw n (wordOperand s).toNat)
  rwa [encodeN_length] at huse

theorem decodeCommand_portUse {i : Instr} {n : Nat} {s t : State} (h : decodeCommand i n s = .next t) :
    PortUse t.out 0 false true false := by
  obtain ⟨a, -, rfl⟩ := (complete_one_read_next_iff i s t _ _).mp h
  exact portUse_driveWord _

theorem addCommand_portUse {i : Instr} {n : Nat} {s t : State} (hn : n ≤ 32) (h : addCommand i n s = .next t) :
    PortUse t.out n true false false := by
  obtain ⟨a, b, ha, hb, rfl⟩ := (complete_two_reads_next_iff i s t _ _ _).mp h
  have huse := portUse_driveBitsAndCarry (addN a b).1 (addN a b).2
  rwa [addN_length, softOperandA_length ha, softOperandB_length hb, min_self, min_eq_left hn] at huse

theorem shiftCommand_portUse {i : Instr} {n : Nat} {s t : State} (hn : n ≤ 32) (h : shiftCommand i n s = .next t) :
    PortUse t.out n false false false := by
  obtain ⟨x, hx, rfl⟩ := (complete_one_read_next_iff i s t _ _).mp h
  have huse := portUse_driveBits (shiftRight x)
  rwa [shiftRight_length, softOperandA_length hx, min_eq_left hn] at huse

theorem binaryGate_portUse {i : Instr} {gate : Bit → Bit → Bit} {s t : State} (h : binaryGate i gate s = .next t) :
    PortUse t.out 1 false false false := by
  obtain ⟨a, b, -, -, rfl⟩ := (complete_two_reads_next_iff i s t _ _ _).mp h
  exact portUse_driveBits [gate a b]

/-- Settles O37, command by command: each drives its results with the operation the table lists for it. -/
theorem drivenPortsFollowTheTable : Obligations.DrivenPortsFollowTheTable := by
  intro i s t h hok
  show PortUse t.out (lanesDriven i) (drivesCarry i) (drivesWord i) (drivesBool i)
  cases i with
  | fsub => exact binaryGate_portUse (i := .fsub) (gate := fsub) h
  | encb =>
    obtain rfl := (complete_no_read_next_iff .encb s t _).mp h
    exact portUse_driveBits [_]
  | isone =>
    obtain ⟨a, -, rfl⟩ := (complete_one_read_next_iff .isone s t _ _).mp h
    exact portUse_driveBool _
  | notGate =>
    obtain ⟨x, -, rfl⟩ := (complete_one_read_next_iff .notGate s t _ _).mp h
    exact portUse_driveBits [gateNot x]
  | orGate | andGate | xorGate => exact binaryGate_portUse h
  | fa =>
    obtain ⟨a, b, c, -, -, -, rfl⟩ := (complete_three_reads_next_iff .fa s t _ _ _ _).mp h
    exact portUse_driveBitsAndCarry [_] _
  | enc8 => exact encodeCommand_portUse .enc8 h
  | enc23 => exact encodeCommand_portUse .enc23 h
  | enc24 => exact encodeCommand_portUse .enc24 h
  | enc32 => exact encodeCommand_portUse .enc32 h
  | dec8 | dec23 | dec24 | dec32 => exact decodeCommand_portUse h
  | add8 | add23 | add24 | add32 => exact addCommand_portUse (by decide) h
  | shr8 | shr23 | shr24 | shr32 => exact shiftCommand_portUse (by decide) h
  | funpack =>
    obtain rfl := (complete_no_read_next_iff .funpack s t _).mp h
    exact portUse_funpack _
  | fpack =>
    obtain ⟨x, -, rfl⟩ := (complete_one_read_next_iff .fpack s t _ _).mp h
    exact portUse_driveWord _
  | faddss =>
    obtain ⟨a, b, ha, hb, rfl⟩ := (complete_two_reads_next_iff .faddss s t _ _ _).mp h
    exact portUse_faddResults (floatOperandA_fraction_length ha) (floatOperandB_fraction_length hb) hok

end Sys2Proof.Proofs
end

section
/-! SUPPORT. A command reads no port but those of spec 30 R81, so its answer is a function of them (20 R58). -/

namespace Sys2Proof.Proofs

open Sys2Proof.Machine Sys2Proof.Safety

/-- Two states hold the same words on these lanes. -/
def AgreeOn (s s' : State) (refs : List LaneRef) : Prop := ∀ r ∈ refs, laneWord s.inp r = laneWord s'.inp r

theorem agreeOn_append {s s' : State} {l l' : List LaneRef} :
    AgreeOn s s' (l ++ l') ↔ AgreeOn s s' l ∧ AgreeOn s s' l' := List.forall_mem_append

theorem mem_laneRange {port : LanePort} {n k : Nat} (h : k < n) : (port, k) ∈ laneRange port n :=
  List.mem_map.mpr ⟨k, List.mem_range.mpr h, rfl⟩

@[simp] theorem laneWord_aBits (p : InPorts) (k : Nat) (h : k < 32) : laneWord p (.aBits, k) = p.aBits[k] := by
  simp [laneWord, h]

@[simp] theorem laneWord_bBits (p : InPorts) (k : Nat) (h : k < 32) : laneWord p (.bBits, k) = p.bBits[k] := by
  simp [laneWord, h]

theorem aBits_eq_of_agreeOn {s s' : State} {n : Nat} (h : AgreeOn s s' (laneRange .aBits n)) (k : Nat) (hk : k < n)
    (hk32 : k < 32) : s.inp.aBits[k] = s'.inp.aBits[k] := by
  have hword := h _ (mem_laneRange hk)
  rwa [laneWord_aBits _ k hk32, laneWord_aBits _ k hk32] at hword

theorem bBits_eq_of_agreeOn {s s' : State} {n : Nat} (h : AgreeOn s s' (laneRange .bBits n)) (k : Nat) (hk : k < n)
    (hk32 : k < 32) : s.inp.bBits[k] = s'.inp.bBits[k] := by
  have hword := h _ (mem_laneRange hk)
  rwa [laneWord_bBits _ k hk32, laneWord_bBits _ k hk32] at hword

theorem take_toList_congr {v v' : Vector Word 32} {n : Nat}
    (h : ∀ (k : Nat) (_ : k < n) (_ : k < 32), v[k] = v'[k]) : v'.toList.take n = v.toList.take n := by
  refine List.ext_getElem (by simp) fun k hk _ => ?_
  obtain ⟨hkn, hk32⟩ : k < n ∧ k < 32 := by simpa using hk
  simpa using (h k hkn hk32).symm

theorem softOperandA_congr {s s' : State} {n : Nat} (h : AgreeOn s s' (laneRange .aBits n)) :
    softOperandA n s' = softOperandA n s :=
  congrArg (readLanes .aBits 0) (take_toList_congr (aBits_eq_of_agreeOn h))

theorem softOperandB_congr {s s' : State} {n : Nat} (h : AgreeOn s s' (laneRange .bBits n)) :
    softOperandB n s' = softOperandB n s :=
  congrArg (readLanes .bBits 0) (take_toList_congr (bBits_eq_of_agreeOn h))

theorem bitOperandA_congr {s s' : State} (h : AgreeOn s s' (laneRange .aBits 1)) : bitOperandA s' = bitOperandA s := by
  rw [bitOperandA, bitOperandA, aBits_eq_of_agreeOn h 0 (by decide) (by decide)]

theorem bitOperandB_congr {s s' : State} (h : AgreeOn s s' (laneRange .bBits 1)) : bitOperandB s' = bitOperandB s := by
  rw [bitOperandB, bitOperandB, bBits_eq_of_agreeOn h 0 (by decide) (by decide)]

theorem carryOperand_congr {s s' : State} (h : AgreeOn s s' (laneRange .cBit 1)) : carryOperand s' = carryOperand s :=
  congrArg (readLane .cBit 0) (h _ (mem_laneRange (port := .cBit) (k := 0) (by decide))).symm

theorem floatOperandA_congr {s s' : State} (h : AgreeOn s s' (laneRange .aBits 32)) :
    floatOperandA s' = floatOperandA s := by
  rw [floatOperandA, floatOperandA, softOperandA_congr h]

theorem floatOperandB_congr {s s' : State} (h : AgreeOn s s' (laneRange .bBits 32)) :
    floatOperandB s' = floatOperandB s := by
  rw [floatOperandB, floatOperandB, softOperandB_congr h]

/-- A command completes in both states with the same results or the same bad lane. -/
def SameCompletion (i : Instr) (s s' : State) (o o' : Host.Outcome State Fault Refusal) : Prop :=
  ∃ r, o = complete i s r ∧ o' = complete i s' r

theorem answered_eq_of_sameCompletion {i : Instr} {s s' : State} {o o' : Host.Outcome State Fault Refusal}
    (h : SameCompletion i s s' o o') : answered o = answered o' := by
  obtain ⟨r, rfl, rfl⟩ := h
  rw [answered_complete, answered_complete]

theorem fault_iff_of_sameCompletion {i : Instr} {s s' : State} {o o' : Host.Outcome State Fault Refusal}
    (h : SameCompletion i s s' o o') (f : Fault) : o = .fault f ↔ o' = .fault f := by
  obtain ⟨r, rfl, rfl⟩ := h
  rw [complete_fault_iff, complete_fault_iff]

theorem encodeCommand_sameCompletion (i : Instr) (n : Nat) {s s' : State} (h : s.inp.aWord = s'.inp.aWord) :
    SameCompletion i s s' (encodeCommand i n s) (encodeCommand i n s') :=
  ⟨_, rfl, by rw [encodeCommand, wordOperand, wordOperand, h]⟩

theorem decodeCommand_sameCompletion (i : Instr) {n : Nat} {s s' : State} (h : AgreeOn s s' (laneRange .aBits n)) :
    SameCompletion i s s' (decodeCommand i n s) (decodeCommand i n s') :=
  ⟨_, rfl, by rw [decodeCommand, softOperandA_congr h]⟩

theorem shiftCommand_sameCompletion (i : Instr) {n : Nat} {s s' : State} (h : AgreeOn s s' (laneRange .aBits n)) :
    SameCompletion i s s' (shiftCommand i n s) (shiftCommand i n s') :=
  ⟨_, rfl, by rw [shiftCommand, softOperandA_congr h]⟩

theorem addCommand_sameCompletion (i : Instr) {n : Nat} {s s' : State}
    (h : AgreeOn s s' (laneRange .aBits n ++ laneRange .bBits n)) :
    SameCompletion i s s' (addCommand i n s) (addCommand i n s') := by
  obtain ⟨ha, hb⟩ := agreeOn_append.mp h
  exact ⟨_, rfl, by rw [addCommand, softOperandA_congr ha, softOperandB_congr hb]⟩

theorem binaryGate_sameCompletion (i : Instr) (gate : Bit → Bit → Bit) {s s' : State}
    (h : AgreeOn s s' (laneRange .aBits 1 ++ laneRange .bBits 1)) :
    SameCompletion i s s' (binaryGate i gate s) (binaryGate i gate s') := by
  obtain ⟨ha, hb⟩ := agreeOn_append.mp h
  exact ⟨_, rfl, by rw [binaryGate, bitOperandA_congr ha, bitOperandB_congr hb]⟩

/-- States that agree on what the table lists as read complete a command alike (30 R81). -/
theorem exec_sameCompletion (i : Instr) {s s' : State} (hlanes : AgreeOn s s' (lanesRead i))
    (hword : readsWord i = true → s.inp.aWord = s'.inp.aWord)
    (hbool : readsBool i = true → s.inp.aBool = s'.inp.aBool) : SameCompletion i s s' (exec i s) (exec i s') := by
  cases i with
  | fsub => exact binaryGate_sameCompletion .fsub fsub hlanes
  | encb =>
    refine ⟨.ok _, rfl, ?_⟩
    show execEncb s' = _
    rw [execEncb, boolOperand, boolOperand, hbool rfl]
  | isone =>
    refine ⟨_, rfl, ?_⟩
    show execIsone s' = _
    rw [execIsone, bitOperandA_congr hlanes, aBits_eq_of_agreeOn hlanes 0 (by decide) (by decide)]
  | notGate =>
    refine ⟨_, rfl, ?_⟩
    show execNot s' = _
    rw [execNot, bitOperandA_congr hlanes]
  | orGate | andGate | xorGate => exact binaryGate_sameCompletion _ _ hlanes
  | fa =>
    obtain ⟨hab, hc⟩ := agreeOn_append.mp hlanes
    obtain ⟨ha, hb⟩ := agreeOn_append.mp hab
    refine ⟨_, rfl, ?_⟩
    show execFa s' = _
    rw [execFa, bitOperandA_congr ha, bitOperandB_congr hb, carryOperand_congr hc]
  | enc8 | enc23 | enc24 | enc32 => exact encodeCommand_sameCompletion _ _ (hword rfl)
  | dec8 | dec23 | dec24 | dec32 => exact decodeCommand_sameCompletion _ hlanes
  | add8 | add23 | add24 | add32 => exact addCommand_sameCompletion _ hlanes
  | shr8 | shr23 | shr24 | shr32 => exact shiftCommand_sameCompletion _ hlanes
  | funpack =>
    refine ⟨.ok _, rfl, ?_⟩
    show execFunpack s' = _
    rw [execFunpack, wordOperand, wordOperand, hword rfl]
  | fpack =>
    refine ⟨_, rfl, ?_⟩
    show execFpack s' = _
    rw [execFpack, floatOperandA_congr hlanes]
  | faddss =>
    obtain ⟨ha, hb⟩ := agreeOn_append.mp hlanes
    refine ⟨_, rfl, ?_⟩
    show execFaddss s' = _
    rw [execFaddss, floatOperandA_congr ha, floatOperandB_congr hb]

/-- Settles O38: the record and the fault are functions of how the command completes. -/
theorem answerDependsOnlyOnPortsRead : Obligations.AnswerDependsOnlyOnPortsRead := by
  intro i s s' hlanes hword hbool
  have hsame := exec_sameCompletion i hlanes hword hbool
  exact ⟨answered_eq_of_sameCompletion hsame, fault_iff_of_sameCompletion hsame⟩

end Sys2Proof.Proofs
end

section
/-! SUPPORT. One line of the assembler, from the values the host holds to the names it gives the results (spec 30 R83). -/

namespace Sys2Proof.Proofs

open Sys2Proof.Machine Sys2Proof.Safety

/-- The first lanes of an overlaid port are the words placed on them. -/
theorem take_overlayLanes (old : Vector Word 32) (ws : List Word) (h : ws.length ≤ 32) :
    (overlayLanes old ws).toList.take ws.length = ws := by
  refine List.ext_getElem (by simpa using h) fun k _ hk => ?_
  have hk32 : k < 32 := hk.trans_le h
  simp [overlayLanes_get old ws k hk32, hk]

theorem carries_overlayLanes (old : Vector Word 32) (bs : List Bit) (h : bs.length ≤ 32) :
    Carries (overlayLanes old (bs.map pat)) bs := by
  have htake := take_overlayLanes old (bs.map pat) (by rwa [List.length_map])
  rwa [List.length_map] at htake

/-- The operand ports with a soft integer on the first lanes of A_BITS and another on those of B_BITS. -/
def withSoftOperands (p : InPorts) (x y : List Bit) : InPorts :=
  { p with aBits := overlayLanes p.aBits (x.map pat), bBits := overlayLanes p.bBits (y.map pat) }

theorem softOperandA_withSoftOperands {s : State} {p : InPorts} {n : Nat} {x y : List Bit} (hx : x.length = n)
    (hn : n ≤ 32) (hinp : s.inp = withSoftOperands p x y) : softOperandA n s = .ok x := by
  rw [softOperandA_ok_iff, hinp, ← hx]
  exact carries_overlayLanes p.aBits x (hx.trans_le hn)

theorem softOperandB_withSoftOperands {s : State} {p : InPorts} {n : Nat} {x y : List Bit} (hy : y.length = n)
    (hn : n ≤ 32) (hinp : s.inp = withSoftOperands p x y) : softOperandB n s = .ok y := by
  rw [softOperandB_ok_iff, hinp, ← hy]
  exact carries_overlayLanes p.bBits y (hy.trans_le hn)

/-- Two lane operands of the right lengths go to A_BITS and B_BITS in that order (30 R83). -/
theorem placeLanes_a_b (command : Instr) (p : InPorts) (x y : List Bit) (hx : x.length = laneCount command .aBits)
    (hy : y.length = laneCount command .bBits) :
    placeLanes command p [.aBits, .bBits] [.lanes (x.map pat), .lanes (y.map pat)] = some (withSoftOperands p x y) := by
  simp [placeLanes, hx, hy, withSoftOperands]

/-- What the host reads from an ADD.N record: the sum's lanes, and then the carry lane. -/
theorem drivenValues_driveBitsAndCarry (bs : List Bit) (c : Bit) (hpos : bs ≠ []) (hlen : bs.length ≤ 32) :
    drivenValues (driveBitsAndCarry bs c) = [.lanes (bs.map pat), .lanes [pat c]] := by
  have hlanes : (driveBitsAndCarry bs c).rBits.toList.filterMap id = bs.map pat :=
    laneVector_driven (bs.map pat) (by rwa [List.length_map])
  unfold drivenValues
  simp only [hlanes]
  simp [hpos]

/-- The line `%s, %c = ADD.8 %x, %y` of 30 R83. -/
def addLine : AsmLine := { results := ["s", "c"], command := .add8, operands := [.named "x", .named "y"] }

theorem assemble_addLine {env : HostEnv} (p : InPorts) {x y : List Bit} (hx : x.length = 8) (hy : y.length = 8)
    (hxval : env.lookup "x" = some (.lanes (x.map pat))) (hyval : env.lookup "y" = some (.lanes (y.map pat))) :
    assemble env p addLine = some { cmd := encode .add8, inp := withSoftOperands p x y } := by
  have hplace : placeOperands .add8 p [.lanes (x.map pat), .lanes (y.map pat)] = some (withSoftOperands p x y) :=
    placeLanes_a_b .add8 p x y hx hy
  simp [assemble, addLine, operandValue, hxval, hyval, hplace]

/-- ADD.N on two operands in the domain (42 R144). -/
theorem addCommand_eq_next (i : Instr) {n : Nat} {s : State} {a b : List Bit} (ha : softOperandA n s = .ok a)
    (hb : softOperandB n s = .ok b) :
    addCommand i n s = .next (s.withResults (driveBitsAndCarry (addN a b).1 (addN a b).2)) :=
  (complete_two_reads_next_iff i s _ _ _ _).mpr ⟨a, b, ha, hb, rfl⟩

theorem exec_add8 (s : State) : exec .add8 s = addCommand .add8 8 s := rfl

/-- Out of reset, a presented command is answered by its meaning on the ports presented with it. -/
theorem serve_encode (i : Instr) (inp : InPorts) {s : State} (hreset : s.inReset = false) :
    (serve { cmd := encode i, inp := inp } s).1 = answered (exec i (s.present { cmd := encode i, inp := inp })) :=
  congrArg answered (step_of_decode_ok rfl hreset (decode_encode i))

/-- ADD.8 presented on two soft integers gives their sum and carry (42 R144). -/
theorem serve_add8 {s : State} {x y : List Bit} (hreset : s.inReset = false) (hx : x.length = 8) (hy : y.length = 8) :
    (serve { cmd := encode .add8, inp := withSoftOperands s.inp x y } s).1 =
      some (driveBitsAndCarry (addN x y).1 (addN x y).2) := by
  rw [serve_encode .add8 _ hreset, exec_add8]
  generalize hs : s.present { cmd := encode .add8, inp := withSoftOperands s.inp x y } = s'
  have hinp : s'.inp = withSoftOperands s.inp x y := by rw [← hs, State.present_inp]
  rw [addCommand_eq_next .add8 (softOperandA_withSoftOperands hx (by decide) hinp)
    (softOperandB_withSoftOperands hy (by decide) hinp)]
  rfl

/-- A line whose command answers two values names them, whatever the host held under these names. -/
theorem runLine_two_results {l : AsmLine} {env : HostEnv} {s : State} {t : Transaction} {r : Results} {m n : String}
    {u v : HostValue} (hl : l.results = [m, n]) (ht : assemble env s.inp l = some t) (hr : (serve t s).1 = some r)
    (hvals : drivenValues r = [u, v]) (hmn : n ≠ m) :
    ∃ env' s', runLine l env s = some (env', s') ∧ env'.lookup m = some u ∧ env'.lookup n = some v := by
  have hne : (n == m) = false := beq_false_of_ne hmn
  refine ⟨[(m, u), (n, v)] ++ env.filter fun e => !(l.results.contains e.1), (serve t s).2, ?_, ?_, ?_⟩
  · simp [runLine, ht, hr, hvals, hl]
  · simp
  · simp [List.lookup_cons, hne]

/-- Settles O49: the line is assembled, served and its two results named. -/
theorem assemblerPlacesAddOperands : Obligations.AssemblerPlacesAddOperands := by
  intro env s x y hreset hx hy hxval hyval
  have hasm := assemble_addLine s.inp hx hy hxval hyval
  have hsum : (addN x y).1.length = 8 := by rw [addN_length, hx, hy, min_self]
  have hdriven := drivenValues_driveBitsAndCarry (addN x y).1 (addN x y).2
    (List.ne_nil_of_length_pos (by omega)) (by omega)
  exact ⟨⟨_, hasm, rfl, carries_overlayLanes s.inp.aBits x (by omega), carries_overlayLanes s.inp.bBits y (by omega)⟩,
    runLine_two_results rfl hasm (serve_add8 hreset hx hy) hdriven (by decide)⟩

end Sys2Proof.Proofs
end

section
/-! SUPPORT. What every command answers: a record of one of the forms of spec 30 R81, or the first bad lane it reads, in
the order of 60 R206; and so what the result ports can hold (40 R108, 60 R201). -/

namespace Sys2Proof.Proofs

open Sys2Proof.Machine Sys2Proof.Safety

/-- The records a command that goes on can drive: one form for each row of the table of 30 R81, and FADDSS's
UNSUPPORTED_OPERAND (43 R181). -/
inductive CommandRecord : Results → Prop
  | bits (bs : List Bit) : CommandRecord (driveBits bs)
  | bitsAndCarry (bs : List Bit) (c : Bit) : CommandRecord (driveBitsAndCarry bs c)
  | word (w : Word) : CommandRecord (driveWord w)
  | bool (b : BitVec 1) : CommandRecord (driveBool b)
  | unsupported : CommandRecord (raised .unsupportedOperand)

/-- What reading these lanes in this order answers: the first bad one, or a value with a property if there is none. -/
inductive Reads {α : Type} (p : InPorts) (refs : List LaneRef) (P : α → Prop) : Except BadLane α → Prop
  | good {a : α} : firstBadLane p refs = none → P a → Reads p refs P (.ok a)
  | bad {b : BadLane} : firstBadLane p refs = some b → Reads p refs P (.error b)

/-- Reading these lanes in this order answers the first bad one, or some value if there is none. -/
abbrev ChecksLanes {α : Type} (p : InPorts) (refs : List LaneRef) (x : Except BadLane α) : Prop :=
  Reads p refs (fun _ => True) x

/-- A read followed by a pure use of its value reads the same lanes. -/
theorem Reads.bind_pure {α β : Type} {p : InPorts} {refs : List LaneRef} {P : β → Prop} {x : Except BadLane α}
    {f : α → β} (hx : ChecksLanes p refs x) (hf : ∀ a, P (f a)) : Reads p refs P (x >>= fun a => pure (f a)) := by
  cases hx with
  | good hnone _ => exact .good hnone (hf _)
  | bad hsome => exact .bad hsome

/-- A read followed by further reads reads its lanes first. -/
theorem Reads.bind {α β : Type} {p : InPorts} {refs refs' : List LaneRef} {P : β → Prop} {x : Except BadLane α}
    {f : α → Except BadLane β} (hx : ChecksLanes p refs x) (hf : ∀ a, Reads p refs' P (f a)) :
    Reads p (refs ++ refs') P (x >>= f) := by
  have happend := firstBadLane_append p refs refs'
  cases hx with
  | @good a hnone _ =>
    rw [hnone, Option.none_or] at happend
    have hrest := hf a
    show Reads p (refs ++ refs') P (f a)
    generalize f a = y at hrest ⊢
    cases hrest with
    | good hnone' hP => exact .good (happend.trans hnone') hP
    | bad hsome => exact .bad (happend.trans hsome)
  | bad hsome =>
    rw [hsome, Option.some_or] at happend
    exact .bad happend

theorem checksLanes_map {α β : Type} {p : InPorts} {refs : List LaneRef} {x : Except BadLane α} (f : α → β)
    (hx : ChecksLanes p refs x) : ChecksLanes p refs (x.map f) := by
  cases hx with
  | good hnone _ => exact .good hnone trivial
  | bad hsome => exact .bad hsome

theorem firstBadLane_singleton (p : InPorts) (port : LanePort) (k : Nat) :
    firstBadLane p [(port, k)] = if inDomain (laneWord p (port, k)) then none
      else some { port := port, lane := k, word := laneWord p (port, k) } := rfl

theorem checksLanes_readLane (p : InPorts) (port : LanePort) (k : Nat) :
    ChecksLanes p [(port, k)] (readLane port k (laneWord p (port, k))) := by
  have hfirst := firstBadLane_singleton p port k
  unfold readLane
  split
  next hgood => exact .good (hfirst.trans (if_pos hgood)) trivial
  next hbad => exact .bad (hfirst.trans (if_neg hbad))

theorem readLanes_cons (port : LanePort) (k : Nat) (w : Word) (ws : List Word) :
    readLanes port k (w :: ws) = do
      let b ← readLane port k w
      let bs ← readLanes port (k + 1) ws
      return b :: bs := by
  rw [readLanes]
  cases readLane port k w with
  | error bad => rfl
  | ok b => cases readLanes port (k + 1) ws <;> rfl

/-- Lanes k, k+1, … are read in this order (60 R206). -/
theorem checksLanes_readLanes (p : InPorts) (port : LanePort) (k : Nat) (ws : List Word)
    (h : ∀ (j : Nat) (hj : j < ws.length), laneWord p (port, k + j) = ws[j]) :
    ChecksLanes p ((List.range' k ws.length).map fun j => (port, j)) (readLanes port k ws) := by
  induction ws generalizing k with
  | nil => exact .good rfl trivial
  | cons w ws ih =>
    obtain rfl : laneWord p (port, k) = w := h 0 (Nat.zero_lt_succ _)
    have hrest := ih (k + 1) fun j hj => by
      rw [Nat.add_right_comm]
      exact h (j + 1) (Nat.succ_lt_succ hj)
    rw [readLanes_cons]
    exact (checksLanes_readLane p port k).bind fun _ => hrest.bind_pure fun _ => trivial

/-- The soft integer on lanes 0, 1, …, n-1 of a port. -/
theorem checksLanes_take {p : InPorts} {port : LanePort} {lanes : Vector Word 32} {n : Nat} (hn : n ≤ 32)
    (h : ∀ (k : Nat) (_ : k < 32), laneWord p (port, k) = lanes[k]) :
    ChecksLanes p (laneRange port n) (readLanes port 0 (lanes.toList.take n)) := by
  have hlength : (lanes.toList.take n).length = n := by simpa using hn
  have hread := checksLanes_readLanes p port 0 (lanes.toList.take n) fun j hj => by
    rw [Nat.zero_add, h j (by omega)]
    simp
  rwa [hlength, ← List.range_eq_range'] at hread

theorem checksLanes_softOperandA {n : Nat} (hn : n ≤ 32) (s : State) :
    ChecksLanes s.inp (laneRange .aBits n) (softOperandA n s) := checksLanes_take hn (laneWord_aBits s.inp)

theorem checksLanes_softOperandB {n : Nat} (hn : n ≤ 32) (s : State) :
    ChecksLanes s.inp (laneRange .bBits n) (softOperandB n s) := checksLanes_take hn (laneWord_bBits s.inp)

theorem checksLanes_floatOperandA (s : State) : ChecksLanes s.inp (laneRange .aBits 32) (floatOperandA s) :=
  checksLanes_map ofLanes (checksLanes_softOperandA le_rfl s)

theorem checksLanes_floatOperandB (s : State) : ChecksLanes s.inp (laneRange .bBits 32) (floatOperandB s) :=
  checksLanes_map ofLanes (checksLanes_softOperandB le_rfl s)

theorem checksLanes_bitOperandA (s : State) : ChecksLanes s.inp (laneRange .aBits 1) (bitOperandA s) := by
  have hread := checksLanes_readLane s.inp .aBits 0
  rwa [laneWord_aBits s.inp 0 (by decide)] at hread

theorem checksLanes_bitOperandB (s : State) : ChecksLanes s.inp (laneRange .bBits 1) (bitOperandB s) := by
  have hread := checksLanes_readLane s.inp .bBits 0
  rwa [laneWord_bBits s.inp 0 (by decide)] at hread

theorem checksLanes_carryOperand (s : State) : ChecksLanes s.inp (laneRange .cBit 1) (carryOperand s) :=
  checksLanes_readLane s.inp .cBit 0

/-- A command's outcome is the end of a reading of these lanes that drives one of the records of a command. -/
def Completes (i : Instr) (s : State) (refs : List LaneRef) (o : Host.Outcome State Fault Refusal) : Prop :=
  ∃ q, o = complete i s q ∧ Reads s.inp refs CommandRecord q

/-- A command that reads no lane. -/
theorem completes_ok (i : Instr) (s : State) {r : Results} (h : CommandRecord r) :
    Completes i s [] (complete i s (.ok r)) := ⟨.ok r, rfl, .good rfl h⟩

theorem binaryGate_completes (i : Instr) (gate : Bit → Bit → Bit) (s : State) :
    Completes i s (laneRange .aBits 1 ++ laneRange .bBits 1) (binaryGate i gate s) :=
  ⟨_, rfl, (checksLanes_bitOperandA s).bind fun a => (checksLanes_bitOperandB s).bind_pure fun b => .bits [gate a b]⟩

theorem decodeCommand_completes (i : Instr) {n : Nat} (hn : n ≤ 32) (s : State) :
    Completes i s (laneRange .aBits n) (decodeCommand i n s) :=
  ⟨_, rfl, (checksLanes_softOperandA hn s).bind_pure fun _ => .word _⟩

theorem addCommand_completes (i : Instr) {n : Nat} (hn : n ≤ 32) (s : State) :
    Completes i s (laneRange .aBits n ++ laneRange .bBits n) (addCommand i n s) :=
  ⟨_, rfl, (checksLanes_softOperandA hn s).bind fun _ =>
    (checksLanes_softOperandB hn s).bind_pure fun _ => .bitsAndCarry _ _⟩

theorem shiftCommand_completes (i : Instr) {n : Nat} (hn : n ≤ 32) (s : State) :
    Completes i s (laneRange .aBits n) (shiftCommand i n s) :=
  ⟨_, rfl, (checksLanes_softOperandA hn s).bind_pure fun x => .bits (shiftRight x)⟩

theorem commandRecord_faddResults (policy : FaddPolicy) (a b : SofterFloat) :
    CommandRecord (faddResults policy a b) := by
  unfold faddResults
  split
  next => exact .unsupported
  next => exact .bits _

/-- What each command can do: it reads the lanes of 30 R81 in the order of 60 R206, and faults at the first bad one or
drives one of the records of a command. -/
theorem exec_completes (i : Instr) (s : State) : Completes i s (lanesRead i) (exec i s) := by
  cases i with
  | fsub => exact binaryGate_completes .fsub fsub s
  | encb | enc8 | enc23 | enc24 | enc32 | funpack => exact completes_ok _ s (.bits _)
  | isone => exact ⟨_, rfl, (checksLanes_bitOperandA s).bind_pure fun _ => .bool _⟩
  | notGate => exact ⟨_, rfl, (checksLanes_bitOperandA s).bind_pure fun x => .bits [gateNot x]⟩
  | orGate | andGate | xorGate => exact binaryGate_completes _ _ s
  | fa =>
    exact ⟨_, rfl, (checksLanes_bitOperandA s).bind fun _ => (checksLanes_bitOperandB s).bind fun _ =>
      (checksLanes_carryOperand s).bind_pure fun _ => .bitsAndCarry [_] _⟩
  | dec8 | dec23 | dec24 | dec32 => exact decodeCommand_completes _ (by decide) s
  | add8 | add23 | add24 | add32 => exact addCommand_completes _ (by decide) s
  | shr8 | shr23 | shr24 | shr32 => exact shiftCommand_completes _ (by decide) s
  | fpack => exact ⟨_, rfl, (checksLanes_floatOperandA s).bind_pure fun x => .word (fpack x)⟩
  | faddss =>
    exact ⟨_, rfl, (checksLanes_floatOperandA s).bind fun a =>
      (checksLanes_floatOperandB s).bind_pure fun b => commandRecord_faddResults Config.unhandledFaddPolicy a b⟩

/-- The two outcomes of a command. -/
theorem exec_cases (i : Instr) (s : State) :
    (∃ r, firstBadLane s.inp (lanesRead i) = none ∧ CommandRecord r ∧ exec i s = .next (s.withResults r)) ∨
    ∃ bad, firstBadLane s.inp (lanesRead i) = some bad ∧
      exec i s = .fault (.domainViolation i bad (raised .domainViolation)) := by
  obtain ⟨q, hq, hreads⟩ := exec_completes i s
  cases hreads with
  | @good r hnone hrecord => exact .inl ⟨r, hnone, hrecord, hq⟩
  | @bad bad hsome => exact .inr ⟨bad, hsome, hq⟩

theorem closed_of_rBits_eq {r : Results} {bs : List Bit} (hbits : ∀ (k : Nat) (_ : k < 32), r.rBits[k] = bs[k]?.map pat)
    (hcarry : ∀ w, r.rCo = some w → inDomain w = true) : Closed r := by
  refine ⟨fun k w hw => ?_, hcarry⟩
  rw [Fin.getElem_fin, hbits k k.isLt, Option.map_eq_some_iff] at hw
  obtain ⟨b, -, rfl⟩ := hw
  exact inDomain_pat b

/-- Every lane a command drives holds the pattern of a Bit (40 R108). -/
theorem CommandRecord.closed {r : Results} (h : CommandRecord r) : Closed r := by
  cases h with
  | bits bs => exact closed_of_rBits_eq (driveBits_rBits bs) nofun
  | bitsAndCarry bs c =>
    refine closed_of_rBits_eq (driveBitsAndCarry_rBits bs c) fun w hw => ?_
    obtain rfl : pat c = w := Option.some.inj hw
    exact inDomain_pat c
  | word | bool | unsupported => exact closed_noValue

theorem closed_raised (st : Status) : Closed (raised st) := closed_noValue

theorem errorsDriveNothing_raised (st : Status) : ErrorsDriveNothing (raised st) := by
  obtain ⟨hbits, hco, hword, hbool, -⟩ := onlyStatus_raised st
  exact fun _ => ⟨hbits, hco, hword, hbool⟩

/-- A record with STATUS = OK meets 60 R201 vacuously, and the one other record is the error's. -/
theorem CommandRecord.errorsDriveNothing {r : Results} (h : CommandRecord r) : ErrorsDriveNothing r := by
  cases h with
  | bits | bitsAndCarry | word | bool => exact fun hstatus => absurd rfl hstatus
  | unsupported => exact errorsDriveNothing_raised .unsupportedOperand

/-- Settles O40: the idle step keeps the record that is there, and a command that goes on puts one of its own forms in its
place. -/
theorem stepKeepsPortInvariant : Obligations.StepKeepsPortInvariant := by
  intro s t hinv h
  obtain ⟨-, hs⟩ | ⟨c, -, -, hs⟩ | ⟨c, why, -, -, -, hs⟩ | ⟨c, i, -, -, -, hs⟩ := step_cases s
  case inl =>
    cases hs.symm.trans h
    exact hinv
  case inr.inl => cases hs.symm.trans h
  case inr.inr.inl => cases hs.symm.trans h
  case inr.inr.inr =>
    obtain ⟨r, -, hrecord, hnext⟩ | ⟨bad, -, hfault⟩ := exec_cases i s
    · cases (hs.trans hnext).symm.trans h
      exact ⟨hrecord.closed, hrecord.errorsDriveNothing⟩
    · cases (hs.trans hfault).symm.trans h

/-- Settles O42: the host gets one of a command's own forms, or the record of a fault, which drives no lane. -/
theorem drivenLanesAreDomainPatterns : Obligations.DrivenLanesAreDomainPatterns := by
  intro i s r h
  obtain ⟨r', -, hrecord, hnext⟩ | ⟨bad, -, hfault⟩ := exec_cases i s
  · rw [hnext] at h
    cases h
    exact hrecord.closed
  · rw [hfault] at h
    cases h
    exact closed_raised .domainViolation

/-- The commands that read no lane (60 R204). -/
theorem lanesRead_eq_nil_iff (i : Instr) :
    lanesRead i = [] ↔ i ∈ [.encb, .enc8, .enc23, .enc24, .enc32, .funpack] := by
  cases i <;> decide

/-- Settles O35: the two outcomes of a command, told apart by the first bad lane it reads. -/
theorem commandStopsExactlyAtFirstBadLane : Obligations.CommandStopsExactlyAtFirstBadLane := by
  refine ⟨fun i s => ?_, lanesRead_eq_nil_iff⟩
  obtain ⟨r, hnone, -, hnext⟩ | ⟨bad, hsome, hfault⟩ := exec_cases i s
  · rw [hnone]
    exact ⟨_, hnext, sameInputs_withResults s r⟩
  · rw [hsome]
    exact ⟨_, hfault, onlyStatus_raised .domainViolation⟩

end Sys2Proof.Proofs
end

section
/-! SUPPORT. The Bit encoding layer: FSUB and its table, ENCB and ISONE (spec 40 R103 to R107). -/

namespace Sys2Proof.Proofs

open Sys2Proof.Machine Sys2Proof.Safety

/-- A command faults at the first bad lane it reads (60 R206). -/
theorem faultsAt_of_firstBadLane {i : Instr} {s : State} {port : LanePort} {k : Nat} {w : Word}
    (h : firstBadLane s.inp (lanesRead i) = some { port := port, lane := k, word := w }) : FaultsAt i s port k w := by
  obtain ⟨r, hnone, -⟩ | ⟨bad, hsome, hfault⟩ := exec_cases i s
  · cases hnone.symm.trans h
  · cases hsome.symm.trans h
    exact ⟨_, hfault, onlyStatus_raised .domainViolation⟩

theorem firstBadLane_aBits_zero (p : InPorts) :
    firstBadLane p (laneRange .aBits 1) = if inDomain p.aBits[0] then none
      else some { port := .aBits, lane := 0, word := p.aBits[0] } := by
  rw [← laneWord_aBits p 0 (by decide)]
  exact firstBadLane_singleton p .aBits 0

theorem firstBadLane_bBits_zero (p : InPorts) :
    firstBadLane p (laneRange .bBits 1) = if inDomain p.bBits[0] then none
      else some { port := .bBits, lane := 0, word := p.bBits[0] } := by
  rw [← laneWord_bBits p 0 (by decide)]
  exact firstBadLane_singleton p .bBits 0

/-- The record of a command with one result lane (30 R81). -/
theorem holds_driveBits_singleton (b : Bit) :
    Holds (driveBits [b]) (firstLanes 1 fun _ => pat b) none none none .ok := by
  refine ⟨fun k => ?_, rfl, rfl, rfl, rfl⟩
  rw [Fin.getElem_fin, driveBits_rBits [b] k k.isLt]
  cases hk : k.val with
  | zero => rfl
  | succ j => rfl

theorem bitOperandA_of_pat {s : State} {a : Bit} (h : s.inp.aBits[0] = pat a) : bitOperandA s = .ok a := by
  rw [bitOperandA, h, readLane_pat]

theorem bitOperandB_of_pat {s : State} {b : Bit} (h : s.inp.bBits[0] = pat b) : bitOperandB s = .ok b := by
  rw [bitOperandB, h, readLane_pat]

/-- A gate of two Bits is a two-Bit command with the gate's table (41 R122, R124, R126; FSUB: 40 R103). -/
theorem twoBitCommand_of_binaryGate {i : Instr} {gate f : Bit → Bit → Bit}
    (hlanes : lanesRead i = laneRange .aBits 1 ++ laneRange .bBits 1) (hexec : ∀ s, exec i s = binaryGate i gate s)
    (htable : ∀ a b, gate a b = f a b) : TwoBitCommand i (encode i) f := by
  refine ⟨rfl, fun s a b ha hb => ?_, fun s ha => ?_, fun s ha hb => ?_⟩
  · refine ⟨s.withResults (driveBits [gate a b]), ?_, sameInputs_withResults s _, ?_⟩
    · rw [hexec]
      exact (complete_two_reads_next_iff i s _ _ _ _).mpr ⟨a, b, bitOperandA_of_pat ha, bitOperandB_of_pat hb, rfl⟩
    · rw [← htable]
      exact holds_driveBits_singleton (gate a b)
  · apply faultsAt_of_firstBadLane
    rw [hlanes, firstBadLane_append, firstBadLane_aBits_zero, ha]
    rfl
  · apply faultsAt_of_firstBadLane
    rw [hlanes, firstBadLane_append, firstBadLane_aBits_zero, firstBadLane_bBits_zero, ha, hb]
    rfl

/-- `val(a - b)` is `val(a) OR NOT val(b)` (40 R103). -/
theorem val_fsub_eq_one_iff (a b : Bit) : val (fsub a b) = 1 ↔ val a = 1 ∨ ¬ val b = 1 := by
  cases a <;> cases b <;> decide

theorem fsub_self (a : Bit) : fsub a a = .one := by
  cases a <;> rfl

/-- Settles O8: FSUB is the two-Bit command of its own table. -/
theorem fsubIsBitSubtraction : Obligations.FsubIsBitSubtraction :=
  ⟨twoBitCommand_of_binaryGate (gate := fsub) rfl (fun _ => rfl) fsub_eq,
    fun a b => ⟨val_fsub_eq_one_iff a b, fsub_self a⟩⟩

/-- Settles O9: with NOT's table, OR's table at b = ONE is the column of ZERO, and at b = ZERO the column of ONE. -/
theorem fsubTableIsForced : Obligations.FsubTableIsForced := by
  intro f hnotOne hnotZero hor
  funext a b
  cases b with
  | zero =>
    have hcolumn := hor a .one
    rw [hnotOne] at hcolumn
    simpa [fsub_eq] using hcolumn
  | one =>
    have hcolumn := hor a .zero
    rw [hnotZero] at hcolumn
    cases a <;> simpa [fsub_eq] using hcolumn

theorem exec_encb (s : State) : exec .encb s = .next (s.withResults (driveBits [encodeBool s.inp.aBool])) := rfl

/-- ISONE on a lane in the domain (40 R106). -/
theorem exec_isone_of_pat {s : State} {x : Bit} (h : s.inp.aBits[0] = pat x) :
    exec .isone s = .next (s.withResults (driveBool (isOneWord (pat x)))) :=
  (complete_one_read_next_iff .isone s _ _ _).mpr ⟨x, bitOperandA_of_pat h, by rw [h]⟩

theorem pat_encodeBool (b : BitVec 1) : pat (encodeBool b) = if b = 1 then 0x00000000 else 0x80000000 := by
  obtain rfl | rfl := BitVec.eq_zero_or_eq_one b <;> rfl

theorem isOneWord_eq (w : Word) : isOneWord w = if w.getLsbD 31 then 0 else 1 := by
  unfold isOneWord
  cases w.getLsbD 31 <;> rfl

/-- ISONE undoes ENCB (40 R107). -/
theorem isOneWord_pat_encodeBool (b : BitVec 1) : isOneWord (pat (encodeBool b)) = b := by
  obtain rfl | rfl := BitVec.eq_zero_or_eq_one b <;> rfl

/-- ENCB undoes ISONE on the domain (40 R107). -/
theorem encodeBool_isOneWord_pat (x : Bit) : encodeBool (isOneWord (pat x)) = x := by
  cases x <;> rfl

theorem driveBits_singleton_rBits_zero (b : Bit) : (driveBits [b]).rBits[0] = some (pat b) :=
  driveBits_rBits [b] 0 (by decide)

/-- Settles O10: ENCB reads A_BOOL alone. -/
theorem encbEncodesBoolean : Obligations.EncbEncodesBoolean := by
  refine ⟨rfl, fun s => ⟨_, exec_encb s, sameInputs_withResults s _, ?_⟩⟩
  rw [← pat_encodeBool]
  exact holds_driveBits_singleton (encodeBool s.inp.aBool)

/-- Settles O11: a lane in the domain is the pattern of a Bit, and any other is the first bad lane. -/
theorem isoneReadsSignBit : Obligations.IsoneReadsSignBit := by
  refine ⟨rfl, fun s hgood => ?_, fun s hbad => faultsAt_of_firstBadLane ?_⟩
  · obtain ⟨x, hx⟩ := (inDomain_iff s.inp.aBits[0]).mp hgood
    refine ⟨_, exec_isone_of_pat hx, sameInputs_withResults s _, ?_⟩
    rw [← isOneWord_eq, hx]
    exact ⟨fun k => driveBool_rBits _ k k.isLt, rfl, rfl, rfl, rfl⟩
  · show firstBadLane s.inp (laneRange .aBits 1) = _
    rw [firstBadLane_aBits_zero, hbad]
    rfl

/-- Settles O12: the two encodings are inverse on booleans and on the two patterns, and each command hands the next one
what it drives. -/
theorem encbIsoneAreInverse : Obligations.EncbIsoneAreInverse := by
  constructor
  · intro s
    refine ⟨_, _, exec_encb s, driveBits_singleton_rBits_zero _, fun s' hlane => ⟨_, exec_isone_of_pat hlane, ?_⟩⟩
    rw [State.withResults_out, driveBool_rBool, isOneWord_pat_encodeBool]
  · intro s hgood
    obtain ⟨x, hx⟩ := (inDomain_iff s.inp.aBits[0]).mp hgood
    refine ⟨_, _, exec_isone_of_pat hx, driveBool_rBool _, fun s' hbool => ⟨_, exec_encb s', ?_⟩⟩
    rw [hbool, encodeBool_isOneWord_pat, hx]
    exact driveBits_singleton_rBits_zero x

end Sys2Proof.Proofs
end

section
/-! SUPPORT. The gate layer: NOT, OR, AND, XOR and FA, with their tables and their faults in order (spec 41 R120 to
R128). -/

namespace Sys2Proof.Proofs

open Sys2Proof.Machine Sys2Proof.Safety

theorem firstBadLane_cBit (p : InPorts) :
    firstBadLane p (laneRange .cBit 1) = if inDomain p.cBit then none
      else some { port := .cBit, lane := 0, word := p.cBit } := firstBadLane_singleton p .cBit 0

theorem carryOperand_of_pat {s : State} {c : Bit} (h : s.inp.cBit = pat c) : carryOperand s = .ok c := by
  rw [carryOperand, h, readLane_pat]

/-- A carry-out Bit on R_CO changes no other result port (41 R128). -/
theorem holds_driveBitsAndCarry {bs : List Bit} {bits : Nat → Option Word}
    (h : Holds (driveBits bs) bits none none none .ok) (c : Bit) :
    Holds (driveBitsAndCarry bs c) bits (some (pat c)) none none .ok := by
  obtain ⟨hbits, -, hword, hbool, hstatus⟩ := h
  exact ⟨hbits, rfl, hword, hbool, hstatus⟩

/-- A command that reads lane A first faults there, whatever the lanes it reads after it hold (60 R206). -/
theorem faultsAt_aBits_zero {i : Instr} {rest : List LaneRef} (hlanes : lanesRead i = laneRange .aBits 1 ++ rest)
    {s : State} (ha : inDomain s.inp.aBits[0] = false) : FaultsAt i s .aBits 0 s.inp.aBits[0] := by
  apply faultsAt_of_firstBadLane
  rw [hlanes, firstBadLane_append, firstBadLane_aBits_zero, ha]
  rfl

/-- After a good lane A, lane B is the next that can fault (60 R206). -/
theorem faultsAt_bBits_zero {i : Instr} {rest : List LaneRef}
    (hlanes : lanesRead i = laneRange .aBits 1 ++ (laneRange .bBits 1 ++ rest)) {s : State}
    (ha : inDomain s.inp.aBits[0] = true) (hb : inDomain s.inp.bBits[0] = false) :
    FaultsAt i s .bBits 0 s.inp.bBits[0] := by
  apply faultsAt_of_firstBadLane
  rw [hlanes, firstBadLane_append, firstBadLane_append, firstBadLane_aBits_zero, firstBadLane_bBits_zero, ha, hb]
  rfl

/-- FA reads C_BIT last (41 R128). -/
theorem faultsAt_fa_cBit {s : State} (ha : inDomain s.inp.aBits[0] = true) (hb : inDomain s.inp.bBits[0] = true)
    (hc : inDomain s.inp.cBit = false) : FaultsAt .fa s .cBit 0 s.inp.cBit := by
  apply faultsAt_of_firstBadLane
  rw [lanesRead, firstBadLane_append, firstBadLane_append, firstBadLane_aBits_zero, firstBadLane_bBits_zero,
    firstBadLane_cBit, ha, hb, hc]
  rfl

/-- NOT on a lane in the domain (41 R120). -/
theorem exec_notGate_of_pat {s : State} {x : Bit} (h : s.inp.aBits[0] = pat x) :
    exec .notGate s = .next (s.withResults (driveBits [gateNot x])) :=
  (complete_one_read_next_iff .notGate s _ _ _).mpr ⟨x, bitOperandA_of_pat h, rfl⟩

/-- FA on three lanes in the domain (41 R128). -/
theorem exec_fa_of_pat {s : State} {a b c : Bit} (ha : s.inp.aBits[0] = pat a) (hb : s.inp.bBits[0] = pat b)
    (hc : s.inp.cBit = pat c) :
    exec .fa s = .next (s.withResults (driveBitsAndCarry [(fullAdder a b c).1] (fullAdder a b c).2)) :=
  (complete_three_reads_next_iff .fa s _ _ _ _ _).mpr
    ⟨a, b, c, bitOperandA_of_pat ha, bitOperandB_of_pat hb, carryOperand_of_pat hc, rfl⟩

theorem fullAdder_eq (a b c : Bit) :
    fullAdder a b c = (gateXor (gateXor a b) c, gateOr (gateAnd (gateXor a b) c) (gateAnd a b)) := rfl

theorem pat_gateNot (x : Bit) : pat (gateNot x) = if x = .one then 0x80000000 else 0x00000000 := by
  rw [gateNot_eq]
  exact apply_ite pat _ _ _

theorem gateNot_gateNot (x : Bit) : gateNot (gateNot x) = x := by
  cases x <;> rfl

/-- OR's table in the form of 41 R123. -/
theorem gateOr_eq_ite_or (a b : Bit) : gateOr a b = if a = .one ∨ b = .one then .one else .zero := by
  rw [gateOr_eq]
  cases b with
  | zero => simp
  | one => simp

/-- AND's table in the form of 41 R125. -/
theorem gateAnd_eq_ite_and (a b : Bit) : gateAnd a b = if a = .one ∧ b = .one then .one else .zero := by
  rw [gateAnd_eq]
  cases b with
  | zero => simp
  | one => simp

theorem gateOr_self (a : Bit) : gateOr a a = a := by
  rw [gateOr_eq]
  split
  next hone => exact hone.symm
  next => rfl

theorem gateAnd_self (a : Bit) : gateAnd a a = a := by
  rw [gateAnd, gateOr_self, gateNot_gateNot]

theorem gateXor_self (a : Bit) : gateXor a a = .zero := by
  rw [gateXor_eq, if_pos rfl]

/-- Settles O17: the record carries the two outputs of `fullAdder`, whose arithmetic law is `fullAdder_val`. -/
theorem fullAdderAddsThreeBits : Obligations.FullAdderAddsThreeBits := by
  refine ⟨rfl, fun s a b c ha hb hc => ?_, fun s => faultsAt_aBits_zero rfl, fun s => faultsAt_bBits_zero rfl,
    fun s => faultsAt_fa_cBit, fullAdder_eq⟩
  have hrecord := holds_driveBitsAndCarry (holds_driveBits_singleton (fullAdder a b c).1) (fullAdder a b c).2
  exact ⟨_, _, _, exec_fa_of_pat ha hb hc, sameInputs_withResults s _, hrecord, fullAdder_val a b c⟩

/-- Settles O13: NOT drives `gateNot` of lane A, the one lane it reads. -/
theorem notComplements : Obligations.NotComplements := by
  refine ⟨rfl, fun s x hx => ⟨_, exec_notGate_of_pat hx, sameInputs_withResults s _, ?_⟩,
    fun s => faultsAt_aBits_zero (rest := []) rfl, fun x => ⟨rfl, gateNot_gateNot x⟩⟩
  rw [← pat_gateNot]
  exact holds_driveBits_singleton (gateNot x)

/-- Settles O14: OR is the two-Bit command of the table of disjunction. -/
theorem orIsDisjunction : Obligations.OrIsDisjunction :=
  ⟨twoBitCommand_of_binaryGate (gate := gateOr) rfl (fun _ => rfl) gateOr_eq_ite_or,
    fun a _ => ⟨rfl, gateOr_self a⟩⟩

/-- Settles O15: AND is the two-Bit command of the table of conjunction. -/
theorem andIsConjunction : Obligations.AndIsConjunction :=
  ⟨twoBitCommand_of_binaryGate (gate := gateAnd) rfl (fun _ => rfl) gateAnd_eq_ite_and,
    fun a _ => ⟨rfl, gateAnd_self a⟩⟩

/-- Settles O16: XOR is the two-Bit command of the table of difference. -/
theorem xorIsDifference : Obligations.XorIsDifference :=
  ⟨twoBitCommand_of_binaryGate (gate := gateXor) rfl (fun _ => rfl) gateXor_eq,
    fun a _ => ⟨rfl, gateXor_self a⟩⟩

end Sys2Proof.Proofs
end

section
/-! SUPPORT. The soft-integer functions as arithmetic on the numbers their lanes stand for, at every width (spec 42 R140
to R149), and the carries of the ripple (42 R144, R147). -/

namespace Sys2Proof.Proofs

open Sys2Proof.Machine

/-- Bit i of the number of some lanes is lane i. -/
theorem testBit_num (v : List Bit) (i : Nat) : (num v).testBit i = decide (v[i]? = some .one) := by
  induction v generalizing i with
  | nil => simp [num]
  | cons b bs ih =>
    cases i with
    | zero => cases b <;> simp [num, Nat.testBit_zero, Nat.add_mod]
    | succ i =>
      have hhalf : num (b :: bs) / 2 = num bs := by
        have := val_le_one b
        rw [num]
        omega
      rw [Nat.testBit_succ, hhalf, ih, List.getElem?_cons_succ]

/-- A lane of an encoded number is ONE exactly where the number has a bit below the source width (42 R140). -/
theorem encodeN_get_eq_one_iff (srcw : Nat) {n i : Nat} (x : Nat) (h : i < n) :
    (encodeN srcw n x)[i]? = some .one ↔ i < srcw ∧ x.testBit i = true := by
  rw [encodeN_get srcw n x i h]
  cases hbit : decide (i < srcw) && x.testBit i <;> simpa using hbit

/-- Encoding keeps the bits below the source width and below the width (42 R140, R141). -/
theorem num_encodeN (srcw n x : Nat) : num (encodeN srcw n x) = x % 2 ^ srcw % 2 ^ n := by
  refine Nat.eq_of_testBit_eq fun i => ?_
  rw [testBit_num, Nat.testBit_mod_two_pow, Nat.testBit_mod_two_pow]
  by_cases hi : i < n
  · simp only [encodeN_get_eq_one_iff srcw x hi, hi, Bool.decide_and, Bool.decide_eq_true, decide_true, Bool.true_and]
  · simp [hi]

theorem num_encodeN_of_le {srcw n : Nat} (x : Nat) (h : n ≤ srcw) : num (encodeN srcw n x) = x % 2 ^ n := by
  rw [num_encodeN, Nat.mod_mod_of_dvd x (Nat.pow_dvd_pow 2 h)]

theorem num_replicate_one (n : Nat) : num (List.replicate n .one) + 1 = 2 ^ n := by
  induction n with
  | zero => rfl
  | succ n ih =>
    rw [List.replicate_succ, num, val_one, pow_succ]
    omega

/-- The ripple adds: the sum lanes and the carry out stand for the two numbers and the carry in (42 R144). -/
theorem num_rippleAdd (c : Bit) {a b : List Bit} (h : a.length = b.length) :
    num (rippleAdd c a b).1 + 2 ^ a.length * val (rippleAdd c a b).2 = num a + num b + val c := by
  induction a generalizing b c with
  | nil =>
    obtain rfl := List.length_eq_zero_iff.mp h.symm
    simp [rippleAdd, num]
  | cons x xs ih =>
    obtain _ | ⟨y, ys⟩ := b
    · cases h
    · have hrest := ih (fullAdder x y c).2 (Nat.succ.inj h)
      have hlane := fullAdder_val x y c
      simp only [rippleAdd, num, List.length_cons]
      rw [pow_succ, Nat.mul_right_comm]
      omega

theorem num_addN {a b : List Bit} (h : a.length = b.length) :
    num (addN a b).1 + 2 ^ a.length * val (addN a b).2 = num a + num b := num_rippleAdd .zero h

/-- The law of the sum and its carry fixes both: the number of the sum lanes is below 2^N (42 R145). -/
theorem addN_sum_and_carry {a b : List Bit} (h : a.length = b.length) :
    num (addN a b).1 = (num a + num b) % 2 ^ a.length ∧
      ((addN a b).2 = .one ↔ 2 ^ a.length ≤ num a + num b) := by
  have hlaw := num_addN h
  have hlt := num_lt (addN a b).1
  rw [addN_length, ← h, min_self] at hlt
  rw [← hlaw]
  constructor
  · rw [Nat.add_mul_mod_self_left, Nat.mod_eq_of_lt hlt]
  · cases (addN a b).2 with
    | zero => simpa using hlt
    | one => simp

/-- The carries of the ripple from a given carry-in: before each lane, and after the last (42 R147). -/
def rippleCarries : Bit → List Bit → List Bit → List Bit
  | c, a :: as, b :: bs => c :: rippleCarries (fullAdder a b c).2 as bs
  | c, _, _ => [c]

theorem rippleCarries_zero (c : Bit) (a b : List Bit) : (rippleCarries c a b)[0]? = some c := by
  cases a with
  | nil => rfl
  | cons x xs => cases b <;> rfl

theorem rippleCarries_length (c : Bit) {a b : List Bit} (h : a.length = b.length) :
    (rippleCarries c a b).length = a.length + 1 := by
  induction a generalizing b c with
  | nil => rfl
  | cons x xs ih =>
    obtain _ | ⟨y, ys⟩ := b
    · cases h
    · exact congrArg (· + 1) (ih (fullAdder x y c).2 (Nat.succ.inj h))

/-- The last carry is the carry out (42 R144). -/
theorem rippleCarries_last (c : Bit) {a b : List Bit} (h : a.length = b.length) :
    (rippleCarries c a b)[a.length]? = some (rippleAdd c a b).2 := by
  induction a generalizing b c with
  | nil => rfl
  | cons x xs ih =>
    obtain _ | ⟨y, ys⟩ := b
    · cases h
    · exact ih (fullAdder x y c).2 (Nat.succ.inj h)

/-- Lane i's full adder takes carry i, and gives sum lane i and carry i + 1 (42 R147). -/
theorem rippleAdd_lane {c₀ : Bit} {a b : List Bit} {i : Nat} {x y c : Bit} (hx : a[i]? = some x) (hy : b[i]? = some y)
    (hc : (rippleCarries c₀ a b)[i]? = some c) :
    (rippleAdd c₀ a b).1[i]? = some (fullAdder x y c).1 ∧
      (rippleCarries c₀ a b)[i + 1]? = some (fullAdder x y c).2 := by
  induction a generalizing b c₀ i with
  | nil => cases hx
  | cons x' xs ih =>
    obtain _ | ⟨y', ys⟩ := b
    · cases hy
    · cases i with
      | zero =>
        cases hx
        cases hy
        cases hc
        exact ⟨rfl, rippleCarries_zero _ xs ys⟩
      | succ i => exact ih hx hy hc

/-- Settles O22: the carries are those of the ripple from ZERO (42 R146). -/
theorem addThreadsTheCarry : Obligations.AddThreadsTheCarry := fun a b h =>
  ⟨rippleCarries .zero a b, rippleCarries_length .zero h, rippleCarries_zero .zero a b, rippleCarries_last .zero h,
    fun _ _ _ _ => rippleAdd_lane⟩

/-- A ZERO above the top lane adds nothing. -/
theorem num_concat_zero (v : List Bit) : num (v ++ [.zero]) = num v := by
  induction v with
  | nil => rfl
  | cons b bs ih => rw [List.cons_append, num, num, ih]

/-- A shift by one position halves the number; lane 0 is the remainder (42 R148, R149). -/
theorem num_shiftRight (x : List Bit) : num (shiftRight x) = num x / 2 := by
  cases x with
  | nil => rfl
  | cons b bs =>
    have := val_le_one b
    rw [shiftRight, num_concat_zero, num]
    omega

theorem num_shiftRightBy (k : Nat) (x : List Bit) : num (shiftRightBy k x) = num x / 2 ^ k := by
  induction k generalizing x with
  | zero => exact (Nat.div_one _).symm
  | succ k ih => rw [shiftRightBy, ih, num_shiftRight, Nat.div_div_eq_div_mul, ← pow_succ']

/-- Every lane but the top one takes the lane above it (42 R148). -/
theorem shiftRight_get {x : List Bit} {k : Nat} (h : k + 1 < x.length) : (shiftRight x)[k]? = x[k + 1]? := by
  cases x with
  | nil => cases h
  | cons b bs => exact List.getElem?_append_left (Nat.lt_of_succ_lt_succ h)

/-- ZERO enters at the top lane (42 R148). -/
theorem shiftRight_top {x : List Bit} (h : 0 < x.length) : (shiftRight x)[x.length - 1]? = some .zero := by
  cases x with
  | nil => cases h
  | cons b bs => exact List.getElem?_concat_length

/-- Settles O24: each law is the law of `num`, which is what `decodeN` computes. -/
theorem softIntegerLawsAtEveryWidth : Obligations.SoftIntegerLawsAtEveryWidth := by
  simp only [Obligations.SoftIntegerLawsAtEveryWidth, decodeN_eq_num]
  refine ⟨fun srcw n x hx => ?_, fun srcw n x y hn hx hy => ?_, fun a b h => ⟨?_, num_addN h⟩, num_shiftRight,
    num_shiftRightBy⟩
  · have hmod : num (encodeN srcw n x) = x % 2 ^ n := by rw [num_encodeN, Nat.mod_eq_of_lt hx]
    exact ⟨hmod, fun hfit => hmod.trans (Nat.mod_eq_of_lt hfit)⟩
  · have hxnum : num (encodeN srcw n x) = x := (num_encodeN_of_le x hn).trans (Nat.mod_eq_of_lt hx)
    have hynum : num (encodeN srcw n y) = y := (num_encodeN_of_le y hn).trans (Nat.mod_eq_of_lt hy)
    obtain ⟨hsum, hcarry⟩ := addN_sum_and_carry (a := encodeN srcw n x) (b := encodeN srcw n y) (by simp)
    rw [encodeN_length, hxnum, hynum] at hsum hcarry
    refine ⟨hsum, hcarry, ?_⟩
    rw [num_shiftRight, hxnum, Nat.shiftRight_eq_div_pow, pow_one]
  · rw [addN_length, ← h, min_self]

end Sys2Proof.Proofs
end

section
/-! SUPPORT. Where a command that reads the first lanes of A_BITS, and then of B_BITS, faults (spec 60 R206). -/

namespace Sys2Proof.Proofs

open Sys2Proof.Machine Sys2Proof.Safety

/-- Reading lanes answers a value only if none of them is bad. -/
theorem Reads.firstBadLane_of_ok {α : Type} {p : InPorts} {refs : List LaneRef} {P : α → Prop}
    {x : Except BadLane α} {a : α} (hreads : Reads p refs P x) (h : x = .ok a) : firstBadLane p refs = none := by
  cases hreads with
  | good hnone _ => exact hnone
  | bad => cases h

/-- The bad lane that reading lanes answers is the first one. -/
theorem Reads.firstBadLane_of_error {α : Type} {p : InPorts} {refs : List LaneRef} {P : α → Prop}
    {x : Except BadLane α} {bad : BadLane} (hreads : Reads p refs P x) (h : x = .error bad) :
    firstBadLane p refs = some bad := by
  cases hreads with
  | good => cases h
  | bad hsome =>
    cases h
    exact hsome

/-- Reading lanes 0, 1, …, n-1 of a port answers the lane after the good ones, if it is bad. -/
theorem readLanes_take_of_bad (port : LanePort) {lanes : Vector Word 32} {n : Nat} {good : List Bit} {w : Word}
    (hlt : good.length < n) (hgood : Carries lanes good) (hw : lanes.toList[good.length]? = some w)
    (hbad : inDomain w = false) :
    readLanes port 0 (lanes.toList.take n) = .error { port := port, lane := good.length, word := w } := by
  have htake : (lanes.toList.take n).take good.length = good.map pat := by
    rw [List.take_take, min_eq_left hlt.le]
    exact hgood
  obtain ⟨hlen, hget⟩ := List.getElem?_eq_some_iff.mp ((List.getElem?_take_of_lt hlt).trans hw)
  rw [← List.take_append_drop good.length (lanes.toList.take n), List.drop_eq_getElem_cons hlen, htake, hget,
    readLanes_first_bad port 0 good w _ hbad, Nat.zero_add]

theorem firstBadLane_aBits_of_carries {s : State} {a : List Bit} (h : Carries s.inp.aBits a) (hn : a.length ≤ 32) :
    firstBadLane s.inp (laneRange .aBits a.length) = none :=
  (checksLanes_softOperandA hn s).firstBadLane_of_ok ((softOperandA_ok_iff _ s a).mpr h)

theorem faultsAtLowestLane_of_lanesRead {i : Instr} {n : Nat} {rest : List LaneRef} (hn : n ≤ 32)
    (hlanes : lanesRead i = laneRange .aBits n ++ rest) : FaultsAtLowestLane i n := by
  intro s good w hlt hgood hw hbad
  have hfirst := (checksLanes_softOperandA hn s).firstBadLane_of_error
    (readLanes_take_of_bad .aBits hlt hgood hw hbad)
  apply faultsAt_of_firstBadLane
  rw [hlanes, firstBadLane_append, hfirst, Option.some_or]

theorem faultsAtFirstLaneOfTwo_of_lanesRead {i : Instr} {n : Nat} (hn : n ≤ 32)
    (hlanes : lanesRead i = laneRange .aBits n ++ laneRange .bBits n) : FaultsAtFirstLaneOfTwo i n := by
  refine ⟨faultsAtLowestLane_of_lanesRead hn hlanes, fun s a good w hlen ha hlt hgood hw hbad => ?_⟩
  subst hlen
  have hfirst := (checksLanes_softOperandB hn s).firstBadLane_of_error
    (readLanes_take_of_bad .bBits hlt hgood hw hbad)
  apply faultsAt_of_firstBadLane
  rw [hlanes, firstBadLane_append, firstBadLane_aBits_of_carries ha hn, hfirst, Option.none_or]

end Sys2Proof.Proofs
end

section
/-! SUPPORT. ENC.N, DEC.N, ADD.N and SHR.N at the four widths: each row of the lists of commands is the one
generic meaning at its width (spec 42 R140 to R151). -/

namespace Sys2Proof.Proofs

open Sys2Proof.Machine Sys2Proof.Safety

/-- The record of a command that drives Bit lanes (30 R81). -/
theorem holds_driveBits (bs : List Bit) :
    Holds (driveBits bs) (fun k => bs[k]?.map pat) none none none .ok :=
  ⟨fun k => driveBits_rBits bs k k.isLt, rfl, rfl, rfl, rfl⟩

theorem holds_driveWord (w : Word) : Holds (driveWord w) (fun _ => none) none (some w) none .ok :=
  ⟨fun k => driveWord_rBits w k k.isLt, rfl, rfl, rfl, rfl⟩

theorem softOperandA_of_carries {n : Nat} {s : State} {bs : List Bit} (hlen : bs.length = n)
    (h : Carries s.inp.aBits bs) : softOperandA n s = .ok bs := by
  rw [softOperandA_ok_iff, ← hlen]
  exact h

theorem softOperandB_of_carries {n : Nat} {s : State} {bs : List Bit} (hlen : bs.length = n)
    (h : Carries s.inp.bBits bs) : softOperandB n s = .ok bs := by
  rw [softOperandB_ok_iff, ← hlen]
  exact h

/-- Each ENC.N is `encodeCommand` at its width. -/
theorem of_mem_encCommands {p : Instr × Nat × CmdByte} (hp : p ∈ encCommands) :
    encode p.1 = p.2.2 ∧ exec p.1 = encodeCommand p.1 p.2.1 := by
  simp only [encCommands, List.mem_cons, List.not_mem_nil, or_false] at hp
  obtain rfl | rfl | rfl | rfl := hp <;> exact ⟨rfl, rfl⟩

/-- Each DEC.N is `decodeCommand` at its width. -/
theorem of_mem_decCommands {p : Instr × Nat × CmdByte} (hp : p ∈ decCommands) :
    encode p.1 = p.2.2 ∧ p.2.1 ≤ 32 ∧ lanesRead p.1 = laneRange .aBits p.2.1 ∧
      exec p.1 = decodeCommand p.1 p.2.1 := by
  simp only [decCommands, List.mem_cons, List.not_mem_nil, or_false] at hp
  obtain rfl | rfl | rfl | rfl := hp <;> exact ⟨rfl, by decide, rfl, rfl⟩

/-- Each ADD.N is `addCommand` at its width. -/
theorem of_mem_addCommands {p : Instr × Nat × CmdByte} (hp : p ∈ addCommands) :
    encode p.1 = p.2.2 ∧ p.2.1 ≤ 32 ∧ lanesRead p.1 = laneRange .aBits p.2.1 ++ laneRange .bBits p.2.1 ∧
      exec p.1 = addCommand p.1 p.2.1 := by
  simp only [addCommands, List.mem_cons, List.not_mem_nil, or_false] at hp
  obtain rfl | rfl | rfl | rfl := hp <;> exact ⟨rfl, by decide, rfl, rfl⟩

/-- Each SHR.N is `shiftCommand` at its width. -/
theorem of_mem_shrCommands {p : Instr × Nat × CmdByte} (hp : p ∈ shrCommands) :
    encode p.1 = p.2.2 ∧ 0 < p.2.1 ∧ p.2.1 ≤ 32 ∧ lanesRead p.1 = laneRange .aBits p.2.1 ∧
      exec p.1 = shiftCommand p.1 p.2.1 := by
  simp only [shrCommands, List.mem_cons, List.not_mem_nil, or_false] at hp
  obtain rfl | rfl | rfl | rfl := hp <;> exact ⟨rfl, by decide, by decide, rfl, rfl⟩

/-- ENC.N in every state (42 R140). -/
theorem encodeCommand_eq_next (i : Instr) (n : Nat) (s : State) :
    encodeCommand i n s = .next (s.withResults (driveBits (encodeN Config.srcw n s.inp.aWord.toNat))) := rfl

/-- DEC.N on an operand in the domain (42 R142). -/
theorem decodeCommand_eq_next (i : Instr) {n : Nat} {s : State} {a : List Bit} (ha : softOperandA n s = .ok a) :
    decodeCommand i n s = .next (s.withResults (driveWord ((BitVec.ofNat Config.dstw (decodeN a)).setWidth 32))) :=
  (complete_one_read_next_iff i s _ _ _).mpr ⟨a, ha, rfl⟩

/-- SHR.N on an operand in the domain (42 R148). -/
theorem shiftCommand_eq_next (i : Instr) {n : Nat} {s : State} {x : List Bit} (hx : softOperandA n s = .ok x) :
    shiftCommand i n s = .next (s.withResults (driveBits (shiftRight x))) :=
  (complete_one_read_next_iff i s _ _ _).mpr ⟨x, hx, rfl⟩

theorem pat_bitof (t : Bool) : pat (bitof t) = if t then 0x00000000 else 0x80000000 := by cases t <;> rfl

/-- The patterns of an encoded word: one for each bit of the word below the width (42 R140). -/
theorem encodeN_lane_map_pat (n : Nat) (w : Word) (k : Nat) :
    (encodeN Config.srcw n w.toNat)[k]?.map pat =
      firstLanes n (fun k => if w.getLsbD k then 0x00000000 else 0x80000000) k := by
  unfold firstLanes
  split
  next hk =>
    have hbit : (decide (k < Config.srcw) && w.toNat.testBit k) = w.getLsbD k := by
      rw [BitVec.testBit_toNat, Bool.and_eq_right_iff_imp]
      exact fun hset => decide_eq_true (BitVec.lt_of_getLsbD hset)
    rw [encodeN_get _ _ _ _ hk, hbit]
    exact congrArg some (pat_bitof _)
  next hk =>
    rw [List.getElem?_eq_none (by simpa using hk)]
    rfl

/-- R_WORD is wide enough for every soft integer of at most 32 lanes (00 R9). -/
theorem toNat_decoded_word {bs : List Bit} (h : bs.length ≤ 32) :
    ((BitVec.ofNat Config.dstw (decodeN bs)).setWidth 32).toNat = num bs := by
  have hlt : num bs < 2 ^ 32 := (num_lt bs).trans_le (Nat.pow_le_pow_right (by decide) h)
  rw [BitVec.setWidth_eq, BitVec.toNat_ofNat, decodeN_eq_num, Nat.mod_eq_of_lt hlt]

/-- Lanes moved from the result port to A_BITS carry the Bits that were driven (30 R80). -/
theorem carries_of_driven {bs : List Bit} {lanes : Vector Word 32} (hlen : bs.length ≤ 32)
    (h : ∀ k : Fin 32, k.val < bs.length → (driveBits bs).rBits[k] = some lanes[k]) : Carries lanes bs := by
  refine List.ext_getElem (by simpa using hlen) fun k hk hk' => ?_
  have hkb : k < bs.length := by simpa using hk'
  have hlane := h ⟨k, hkb.trans_le hlen⟩ hkb
  rw [Fin.getElem_fin, driveBits_rBits bs k (hkb.trans_le hlen)] at hlane
  simpa [hkb] using hlane.symm

/-- Settles O18: ENC.N drives `encodeN` of A_WORD, lane by lane its bits. -/
theorem encodeDrivesWordBits : Obligations.EncodeDrivesWordBits := by
  refine ⟨fun p hp => ?_, fun srcw n x i hi => ⟨encodeN_get_eq_one_iff srcw x hi, encodeN_length srcw n x⟩,
    fun n x hn => num_encodeN_of_le x hn⟩
  obtain ⟨hbyte, hexec⟩ := of_mem_encCommands hp
  refine ⟨hbyte, fun s => ⟨_, (congrFun hexec s).trans (encodeCommand_eq_next p.1 p.2.1 s),
    sameInputs_withResults s _, ?_⟩⟩
  rw [← funext (encodeN_lane_map_pat p.2.1 s.inp.aWord)]
  exact holds_driveBits _

/-- Settles O19: DEC.N drives the number of its lanes, which fits in R_WORD. -/
theorem decodeDrivesLaneNumber : Obligations.DecodeDrivesLaneNumber := by
  intro p hp
  obtain ⟨hbyte, hn, hlanes, hexec⟩ := of_mem_decCommands hp
  refine ⟨hbyte, fun s bs hlen hbs => ?_,
    faultsAtLowestLane_of_lanesRead hn (hlanes.trans (List.append_nil _).symm),
    Nat.eq_sub_of_add_eq (num_replicate_one p.2.1)⟩
  have hword := toNat_decoded_word (hlen.trans_le hn)
  refine ⟨_, _, (congrFun hexec s).trans (decodeCommand_eq_next p.1 (softOperandA_of_carries hlen hbs)),
    sameInputs_withResults s _, holds_driveWord _, hword, ?_⟩
  rw [hword, ← hlen]
  exact num_lt bs

/-- Settles O20: the lanes ENC.N drives are in the domain, and DEC.N gives their number. -/
theorem decodeOfEncodeIsModulo : Obligations.DecodeOfEncodeIsModulo := by
  intro p hp s
  have hrow : p.2.2 ≤ 32 ∧ exec p.1 = encodeCommand p.1 p.2.2 ∧ exec p.2.1 = decodeCommand p.2.1 p.2.2 := by
    simp only [List.mem_cons, List.not_mem_nil, or_false] at hp
    obtain rfl | rfl | rfl | rfl := hp <;> exact ⟨by decide, rfl, rfl⟩
  obtain ⟨hn, henc, hdec⟩ := hrow
  refine ⟨_, (congrFun henc s).trans (encodeCommand_eq_next p.1 p.2.2 s), fun s' hlanes => ?_⟩
  have hlen := encodeN_length Config.srcw p.2.2 s.inp.aWord.toNat
  have hcarries := carries_of_driven (hlen.trans_le hn) (by rwa [hlen])
  refine ⟨_, _, (congrFun hdec s').trans (decodeCommand_eq_next p.2.1 (softOperandA_of_carries hlen hcarries)),
    driveWord_rWord _, ?_⟩
  rw [toNat_decoded_word (hlen.trans_le hn), num_encodeN_of_le _ hn]

/-- Settles O21: ADD.N drives the two parts of `addN`, whose law fixes them. -/
theorem addDrivesSumAndCarry : Obligations.AddDrivesSumAndCarry := by
  intro p hp
  obtain ⟨hbyte, hn, hlanes, hexec⟩ := of_mem_addCommands hp
  refine ⟨hbyte, fun s a b hla hlb ha hb => ?_, faultsAtFirstLaneOfTwo_of_lanesRead hn hlanes⟩
  have hlen : a.length = b.length := hla.trans hlb.symm
  have hsum : (addN a b).1.length = p.2.1 := by rw [addN_length, hla, hlb, min_self]
  rw [← hla] at hsum ⊢
  exact ⟨_, _, _, (congrFun hexec s).trans
      (addCommand_eq_next p.1 (softOperandA_of_carries hla ha) (softOperandB_of_carries hlb hb)),
    sameInputs_withResults s _, hsum, holds_driveBitsAndCarry (holds_driveBits _) _, num_addN hlen,
    addN_sum_and_carry hlen⟩

/-- Settles O23: SHR.N drives `shiftRight` of its operand. -/
theorem shiftRightMovesLanes : Obligations.ShiftRightMovesLanes := by
  intro p hp
  obtain ⟨hbyte, hpos, hn, hlanes, hexec⟩ := of_mem_shrCommands hp
  refine ⟨hbyte, fun s x hlen hx => ?_, faultsAtLowestLane_of_lanesRead hn (hlanes.trans (List.append_nil _).symm),
    fun b => rfl⟩
  have hnext := (congrFun hexec s).trans (shiftCommand_eq_next p.1 (softOperandA_of_carries hlen hx))
  rw [← hlen] at hpos ⊢
  exact ⟨_, _, hnext, sameInputs_withResults s _, shiftRight_length x, holds_driveBits _, fun k => shiftRight_get,
    shiftRight_top hpos, num_shiftRight x⟩

end Sys2Proof.Proofs
end

section
/-! SUPPORT. The softer-float record, its 32 lanes and its word: FUNPACK and FPACK (spec 43 R170 to R178). -/

namespace Sys2Proof.Proofs

open Sys2Proof.Machine Sys2Proof.Safety

/-- The record has the field widths of 43 R170. -/
structure FieldWidths (x : SofterFloat) : Prop where
  exponent : x.exponent.length = 8
  fraction : x.fraction.length = 23

theorem fieldWidths_funpack (w : Word) : FieldWidths (funpack w) :=
  ⟨funpack_exponent_length w, funpack_fraction_length w⟩

theorem fieldWidths_ofLanes {l : List Bit} (h : l.length = 32) : FieldWidths (ofLanes l) :=
  ⟨by simp [ofLanes, h], ofLanes_fraction_length h⟩

/-- The bus layout of 43 R170: fraction lanes 0..22, exponent lanes 23..30, sign lane 31. -/
theorem lane_cases {k : Nat} (h : k < 32) : k < 23 ∨ (∃ j, j < 8 ∧ k = 23 + j) ∨ k = 31 := by
  by_cases hfraction : k < 23
  · exact .inl hfraction
  · by_cases hsign : k = 31
    · exact .inr (.inr hsign)
    · exact .inr (.inl ⟨k - 23, by omega, by omega⟩)

section Lanes

variable {x : SofterFloat} (hx : FieldWidths x)
include hx

theorem length_toLanes : (toLanes x).length = 32 := toLanes_length x hx.exponent hx.fraction

theorem toLanes_fraction {k : Nat} (h : k < 23) : (toLanes x)[k]? = x.fraction[k]? := by
  have hfraction := hx.fraction
  rw [toLanes, List.append_assoc, List.getElem?_append_left (by omega)]

theorem toLanes_exponent {k : Nat} (h : k < 8) : (toLanes x)[23 + k]? = x.exponent[k]? := by
  rw [toLanes, List.append_assoc, ← hx.fraction, List.getElem?_append_right (Nat.le_add_right _ _),
    Nat.add_sub_cancel_left, List.getElem?_append_left (by rwa [hx.exponent])]

theorem toLanes_sign : (toLanes x)[31]? = some x.sign := by
  have hlen : (x.fraction ++ x.exponent).length = 31 := by rw [List.length_append, hx.fraction, hx.exponent]
  rw [toLanes, ← hlen, List.getElem?_concat_length]

theorem ofLanes_toLanes : ofLanes (toLanes x) = x := by
  have hsign := toLanes_sign hx
  obtain ⟨hexponent, hfraction⟩ := hx
  obtain ⟨sign, exponent, fraction⟩ := x
  simp only at hexponent hfraction
  simp only [ofLanes, List.getD_eq_getElem?_getD, hsign, Option.getD_some]
  simp [toLanes, hexponent, hfraction]

end Lanes

/-- The Bit on lane k of the bus for a word: the word's bit, and its complement on the sign lane (43 R173, R175). -/
def floatBit (w : Word) (k : Nat) : Bit := bitof (w.getLsbD k != decide (k = 31))

theorem bitof_eq_one_iff (t : Bool) : bitof t = .one ↔ t = true := by cases t <;> decide

theorem bitof_eq_zero_iff (t : Bool) : bitof t = .zero ↔ t = false := by cases t <;> decide

theorem bitof_injective {t t' : Bool} (h : bitof t = bitof t') : t = t' := by
  rw [Bool.eq_iff_iff, ← bitof_eq_one_iff, h, bitof_eq_one_iff]

theorem floatBit_of_ne_sign {w : Word} {k : Nat} (h : k ≠ 31) : floatBit w k = bitof (w.getLsbD k) := by
  simp [floatBit, h]

theorem floatBit_sign (w : Word) : floatBit w 31 = bitof (!w.getLsbD 31) := by simp [floatBit]

/-- The pattern of the sign lane is the sign bit of the word, and that of every other lane says whether its bit is set
(43 R173, R175). -/
theorem pat_floatBit (w : Word) (k : Nat) : pat (floatBit w k) = floatLane w k := by
  unfold floatLane
  split
  next hk =>
    subst hk
    have hmask : w &&& 0x80000000#32 = if w.getLsbD 31 then 0x80000000#32 else 0#32 := BitVec.and_twoPow w 31
    rw [floatBit_sign, hmask]
    cases w.getLsbD 31 <;> rfl
  next hk =>
    rw [floatBit_of_ne_sign hk]
    exact pat_bitof _

/-- The bus loses nothing of the word. -/
theorem word_eq_of_floatBit {w w' : Word} (h : ∀ k < 32, floatBit w k = floatBit w' k) : w = w' := by
  refine BitVec.eq_of_getLsbD_eq fun k hk => ?_
  exact Bool.bne_left_inj.mp (bitof_injective (h k hk))

/-- A lane of an encoded field is the word's bit at the field's place (43 R175). -/
theorem encodeN_extractLsb'_get {start len k : Nat} (w : Word) (h : k < len) (hlen : len ≤ 32) :
    (encodeN Config.srcw len (w.extractLsb' start len).toNat)[k]? = some (bitof (w.getLsbD (start + k))) := by
  rw [encodeN_get _ _ _ _ h, BitVec.testBit_toNat, BitVec.getLsbD_extractLsb']
  simp [h, h.trans_le hlen]

/-- FUNPACK's lanes (43 R175). -/
theorem toLanes_funpack_get (w : Word) {k : Nat} (h : k < 32) : (toLanes (funpack w))[k]? = some (floatBit w k) := by
  have hwidths := fieldWidths_funpack w
  obtain hk | ⟨j, hj, rfl⟩ | rfl := lane_cases h
  · rw [toLanes_fraction hwidths hk, floatBit_of_ne_sign (by omega), funpack,
      encodeN_extractLsb'_get w hk (by decide), Nat.zero_add]
  · rw [toLanes_exponent hwidths hj, floatBit_of_ne_sign (by omega), funpack,
      encodeN_extractLsb'_get w hj (by decide)]
  · rw [toLanes_sign hwidths, floatBit_sign]
    simp [funpack]

/-- A decoded field of a word has the bits of its lanes (43 R177). -/
theorem getLsbD_ofNat_decodeN {n k : Nat} (v : List Bit) (h : k < n) :
    (BitVec.ofNat n (decodeN v)).getLsbD k = decide (v[k]? = some .one) := by
  rw [BitVec.getLsbD_ofNat, decodeN_eq_num, testBit_num, decide_eq_true h, Bool.true_and]

theorem getElem?_eq_some_bitof {v : List Bit} {k : Nat} (h : k < v.length) :
    v[k]? = some (bitof (decide (v[k]? = some .one))) := by
  rw [List.getElem?_eq_getElem h]
  cases v[k] <;> rfl

theorem getLsbD_fpack_fraction (x : SofterFloat) {k : Nat} (h : k < 23) :
    (fpack x).getLsbD k = decide (x.fraction[k]? = some .one) := by
  rw [fpack, BitVec.getLsbD_append, if_pos h, getLsbD_ofNat_decodeN x.fraction h]

theorem getLsbD_fpack_exponent (x : SofterFloat) {k : Nat} (h : k < 8) :
    (fpack x).getLsbD (23 + k) = decide (x.exponent[k]? = some .one) := by
  rw [fpack, BitVec.getLsbD_append, if_neg (by omega), Nat.add_sub_cancel_left, BitVec.getLsbD_append, if_pos h,
    getLsbD_ofNat_decodeN x.exponent h]

theorem getLsbD_fpack_sign (x : SofterFloat) : (fpack x).getLsbD 31 = decide (x.sign = .zero) := by
  rw [fpack, BitVec.getLsbD_append, if_neg (by decide), BitVec.getLsbD_append, if_neg (by decide)]
  cases x.sign <;> rfl

/-- The lanes of a record are those of the word FPACK assembles from it (43 R177). -/
theorem toLanes_get {x : SofterFloat} (hx : FieldWidths x) {k : Nat} (h : k < 32) :
    (toLanes x)[k]? = some (floatBit (fpack x) k) := by
  obtain hk | ⟨j, hj, rfl⟩ | rfl := lane_cases h
  · rw [toLanes_fraction hx hk, floatBit_of_ne_sign (by omega), getLsbD_fpack_fraction x hk]
    exact getElem?_eq_some_bitof (by rwa [hx.fraction])
  · rw [toLanes_exponent hx hj, floatBit_of_ne_sign (by omega), getLsbD_fpack_exponent x hj]
    exact getElem?_eq_some_bitof (by rwa [hx.exponent])
  · rw [toLanes_sign hx, floatBit_sign, getLsbD_fpack_sign]
    cases x.sign <;> rfl

/-- 43 R178, on words. -/
theorem fpack_funpack (w : Word) : fpack (funpack w) = w := by
  refine word_eq_of_floatBit fun k hk => Option.some.inj ?_
  rw [← toLanes_get (fieldWidths_funpack w) hk, toLanes_funpack_get w hk]

/-- 43 R178, on the lanes of records. -/
theorem toLanes_funpack_fpack {x : SofterFloat} (hx : FieldWidths x) : toLanes (funpack (fpack x)) = toLanes x := by
  refine List.ext_getElem? fun k => ?_
  by_cases hk : k < 32
  · rw [toLanes_funpack_get _ hk, toLanes_get hx hk]
  · rw [List.getElem?_eq_none (by rw [length_toLanes (fieldWidths_funpack _)]; omega),
      List.getElem?_eq_none (by rw [length_toLanes hx]; omega)]

theorem toLanes_funpack_map_pat (w : Word) (k : Nat) :
    (toLanes (funpack w))[k]?.map pat = firstLanes 32 (floatLane w) k := by
  unfold firstLanes
  split
  next hk => rw [toLanes_funpack_get w hk, Option.map_some, pat_floatBit]
  next hk =>
    rw [List.getElem?_eq_none (by rw [length_toLanes (fieldWidths_funpack w)]; omega)]
    rfl

/-- The record of a command that drives the lanes of a word (43 R175). -/
theorem holds_driveBits_funpack (w : Word) :
    Holds (driveBits (toLanes (funpack w))) (firstLanes 32 (floatLane w)) none none none .ok := by
  rw [← funext (toLanes_funpack_map_pat w)]
  exact holds_driveBits _

/-- A port with a Bit on every lane carries 32 Bits. -/
theorem exists_carries_of_inDomain {lanes : Vector Word 32} (h : ∀ k : Fin 32, inDomain lanes[k] = true) :
    ∃ bs : List Bit, bs.length = 32 ∧ Carries lanes bs := by
  refine ⟨lanes.toList.map classify, by simp, ?_⟩
  refine List.ext_getElem (by simp) fun k hk hk' => ?_
  have hk32 : k < 32 := by simpa using hk'
  simpa using (pat_classify _ (h ⟨k, hk32⟩)).symm

theorem lane_of_carries {lanes : Vector Word 32} {bs : List Bit} (hlen : bs.length = 32) (h : Carries lanes bs)
    {k : Nat} (hk : k < 32) : bs[k]?.map pat = some lanes[k] := by
  rw [← List.getElem?_map, ← h, List.getElem?_take_of_lt (hlen.symm ▸ hk)]
  simp [hk]

/-- What FUNPACK and FADDSS drive for a word, and what a port that carries its SofterFloat holds, are the same lanes. -/
theorem carries_of_carriesFloat {lanes : Vector Word 32} {w : Word} (h : CarriesFloat lanes w) :
    Carries lanes (toLanes (funpack w)) := by
  have hlen := length_toLanes (fieldWidths_funpack w)
  refine carries_of_driven hlen.le fun k _ => ?_
  rw [Fin.getElem_fin, driveBits_rBits _ k k.isLt, toLanes_funpack_map_pat, firstLanes, if_pos k.isLt]
  exact congrArg some (h k).symm

theorem floatOperandA_of_carries {s : State} {bs : List Bit} (hlen : bs.length = 32) (h : Carries s.inp.aBits bs) :
    floatOperandA s = .ok (ofLanes bs) :=
  (floatOperandA_ok_iff s _).mpr ⟨bs, (softOperandA_ok_iff 32 s bs).mp (softOperandA_of_carries hlen h), rfl⟩

theorem floatOperandB_of_carries {s : State} {bs : List Bit} (hlen : bs.length = 32) (h : Carries s.inp.bBits bs) :
    floatOperandB s = .ok (ofLanes bs) :=
  (floatOperandB_ok_iff s _).mpr ⟨bs, (softOperandB_ok_iff 32 s bs).mp (softOperandB_of_carries hlen h), rfl⟩

/-- FUNPACK in every state (43 R175). -/
theorem exec_funpack (s : State) :
    exec .funpack s = .next (s.withResults (driveBits (toLanes (funpack s.inp.aWord)))) := rfl

/-- FPACK on 32 lanes in the domain (43 R177). -/
theorem exec_fpack_of_carries {s : State} {bs : List Bit} (hlen : bs.length = 32) (h : Carries s.inp.aBits bs) :
    exec .fpack s = .next (s.withResults (driveWord (fpack (ofLanes bs)))) :=
  (complete_one_read_next_iff .fpack s _ _ _).mpr ⟨_, floatOperandA_of_carries hlen h, rfl⟩

theorem num_funpack_exponent (w : Word) : num (funpack w).exponent = w.toNat / 2 ^ 23 % 256 := by
  rw [funpack, num_encodeN_of_le _ (by decide), BitVec.extractLsb'_toNat, Nat.shiftRight_eq_div_pow, Nat.mod_mod]

theorem num_funpack_fraction (w : Word) : num (funpack w).fraction = w.toNat % 2 ^ 23 := by
  rw [funpack, num_encodeN_of_le _ (by decide), BitVec.extractLsb'_toNat, Nat.shiftRight_zero, Nat.mod_mod]

theorem funpack_sign (w : Word) : (funpack w).sign = bitof (!w.getLsbD 31) := by simp [funpack]

/-- Settles O25: FUNPACK drives the lanes of `funpack`, whose fields are those of the word. -/
theorem funpackCopiesFields : Obligations.FunpackCopiesFields := by
  refine ⟨rfl, fun s => ⟨_, exec_funpack s, sameInputs_withResults s _, holds_driveBits_funpack _⟩, fun w =>
    ⟨num_funpack_exponent w, num_funpack_fraction w, funpack_exponent_length w, funpack_fraction_length w, ?_⟩⟩
  rw [funpack_sign, bitof_eq_zero_iff, Bool.not_eq_false']

/-- Settles O26: each lane is the bus lane of the word that FPACK drives. -/
theorem fpackAssemblesWord : Obligations.FpackAssemblesWord := by
  refine ⟨rfl, fun s bs hlen hbs => ?_, faultsAtLowestLane_of_lanesRead (rest := []) (by decide) rfl⟩
  have hlane : ∀ k < 32, bs[k]? = some (floatBit (fpack (ofLanes bs)) k) := fun k hk => by
    rw [← toLanes_get (fieldWidths_ofLanes hlen) hk, toLanes_ofLanes bs hlen]
  refine ⟨_, _, exec_fpack_of_carries hlen hbs, sameInputs_withResults s _, holds_driveWord _, ?_, fun k hk => ?_⟩
  · rw [hlane 31 (by decide), floatBit_sign, Option.some_inj, bitof_eq_zero_iff, Bool.not_eq_false']
  · rw [hlane k (by omega), floatBit_of_ne_sign (by omega), Option.some_inj, bitof_eq_one_iff]

/-- Settles O27: `fpack` and `funpack` are inverse, and each command reads what the other drives. -/
theorem floatRoundTrip : Obligations.FloatRoundTrip := by
  constructor
  · intro s
    refine ⟨_, exec_funpack s, fun s' hlanes => ?_⟩
    have hwidths := fieldWidths_funpack s.inp.aWord
    have hlen := length_toLanes hwidths
    have hcarries := carries_of_driven hlen.le fun k _ => hlanes k
    refine ⟨_, exec_fpack_of_carries hlen hcarries, ?_⟩
    rw [State.withResults_out, driveWord_rWord, ofLanes_toLanes hwidths, fpack_funpack]
  · intro s hdomain
    obtain ⟨bs, hlen, hbs⟩ := exists_carries_of_inDomain hdomain
    refine ⟨_, _, exec_fpack_of_carries hlen hbs, driveWord_rWord _,
      fun s' hword => ⟨_, exec_funpack s', fun k => ?_⟩⟩
    rw [State.withResults_out, hword, toLanes_funpack_fpack (fieldWidths_ofLanes hlen), toLanes_ofLanes bs hlen,
      Fin.getElem_fin, driveBits_rBits bs k k.isLt]
    exact lane_of_carries hlen hbs k.isLt

end Sys2Proof.Proofs
end

section
/-! SUPPORT. FADDSS: its alignment and its sum as arithmetic on numbers, and the closed form (spec 43 R180 to R190). -/

namespace Sys2Proof.Proofs

open Sys2Proof.Machine Sys2Proof.Safety

theorem num_append (u v : List Bit) : num (u ++ v) = num u + 2 ^ u.length * num v := by
  induction u with
  | nil => simp [num]
  | cons b bs ih =>
    rw [List.cons_append, num, num, ih, List.length_cons, pow_succ]
    ring

/-- Dropping the lanes above the first n reduces the number modulo 2^n. -/
theorem num_take (n : Nat) (v : List Bit) : num (v.take n) = num v % 2 ^ n := by
  refine Nat.eq_of_testBit_eq fun i => ?_
  rw [testBit_num, Nat.testBit_mod_two_pow, testBit_num, List.getElem?_take]
  by_cases hi : i < n <;> simp [hi]

/-- Step 1 (43 R182): the implicit bit stands above the fraction unless the exponent is 0. -/
theorem num_significand {x : SofterFloat} (hx : x.fraction.length = 23) :
    num (significand x) = num x.fraction + if num x.exponent ≠ 0 then 2 ^ 23 else 0 := by
  rw [significand, num_append, hx, decodeN_eq_num, num, val_bitof, num]
  by_cases hzero : num x.exponent = 0 <;> simp [hzero]

/-- Step 2 (43 R183) in one equation: on naturals the difference is 0 unless the operand's exponent is the smaller one,
and no shift leaves a significand as it is. -/
theorem align_eq (a b : SofterFloat) :
    align a b = (shiftRightBy (decodeN b.exponent - decodeN a.exponent) (significand a),
      shiftRightBy (decodeN a.exponent - decodeN b.exponent) (significand b),
      max (decodeN a.exponent) (decodeN b.exponent)) := by
  unfold align
  simp only
  split
  next hlt => rw [Nat.sub_eq_zero_of_le hlt.le, max_eq_right hlt.le, shiftRightBy]
  next hle =>
    rw [Nat.sub_eq_zero_of_le (Nat.le_of_not_lt hle), max_eq_left (Nat.le_of_not_lt hle), shiftRightBy]
    split
    next => rfl
    next hge => rw [Nat.sub_eq_zero_of_le (Nat.le_of_not_lt hge), shiftRightBy]

/-- The exponent both significands are aligned to. -/
theorem align_exponent (a b : SofterFloat) : (align a b).2.2 = max (decodeN a.exponent) (decodeN b.exponent) := by
  rw [align_eq]

theorem num_align_left (a b : SofterFloat) :
    num (align a b).1 = num (significand a) / 2 ^ (decodeN b.exponent - decodeN a.exponent) := by
  rw [align_eq, num_shiftRightBy]

theorem num_align_right (a b : SofterFloat) :
    num (align a b).2.1 = num (significand b) / 2 ^ (decodeN a.exponent - decodeN b.exponent) := by
  rw [align_eq, num_shiftRightBy]

/-- The significands that step 3 adds have 24 lanes (43 R182). -/
theorem align_lengths {a b : SofterFloat} (ha : a.fraction.length = 23) (hb : b.fraction.length = 23) :
    (align a b).1.length = 24 ∧ (align a b).2.1.length = 24 := by
  have hlengths := align_length a b (ha.trans hb.symm)
  rwa [ha] at hlengths

theorem num_lt_of_length {v : List Bit} {n : Nat} (h : v.length = n) : num v < 2 ^ n := h ▸ num_lt v

/-- 24 shifts or more leave nothing of a significand (43 R183). -/
theorem significand_div_eq_zero {x : SofterFloat} (hx : x.fraction.length = 23) {d : Nat} (hd : 24 ≤ d) :
    num (significand x) / 2 ^ d = 0 := by
  have hlt : num (significand x) < 2 ^ 24 := num_lt_of_length (by rw [significand_length, hx])
  exact Nat.div_eq_of_lt (hlt.trans_le (Nat.pow_le_pow_right (by decide) hd))

/-- The number that steps 3 and 4 bring back below 2^24: the `S` of 43 R187. -/
def alignedSum (a b : SofterFloat) : Nat := num (align a b).1 + num (align a b).2.1

theorem alignedSum_eq (a b : SofterFloat) :
    alignedSum a b = if num b.exponent ≤ num a.exponent
      then num (significand a) + num (significand b) / 2 ^ (num a.exponent - num b.exponent)
      else num (significand a) / 2 ^ (num b.exponent - num a.exponent) + num (significand b) := by
  rw [alignedSum, num_align_left, num_align_right, decodeN_eq_num, decodeN_eq_num]
  split
  next hle => rw [Nat.sub_eq_zero_of_le hle, pow_zero, Nat.div_one]
  next hgt => rw [Nat.sub_eq_zero_of_le (Nat.le_of_not_le hgt), pow_zero, Nat.div_one]

/-- Steps 3 and 4 without a carry: the sum fits in its lanes (43 R184). -/
theorem addAligned_of_lt {sa sb : List Bit} {n : Nat} (ha : sa.length = n) (hb : sb.length = n) (e : Nat)
    (h : num sa + num sb < 2 ^ n) :
    num (addAligned sa sb e).1 = num sa + num sb ∧ (addAligned sa sb e).2 = e := by
  obtain ⟨hsum, hcarry⟩ := addN_sum_and_carry (ha.trans hb.symm)
  rw [ha] at hsum hcarry
  have hzero : ¬ val (addN sa sb).2 = 1 := fun hval => absurd (hcarry.mp (val_injective _ .one hval)) (by omega)
  rw [addAligned, if_neg hzero]
  exact ⟨hsum.trans (Nat.mod_eq_of_lt h), rfl⟩

/-- Steps 3 and 4 with a carry: the carry itself is dropped, one shift halves the sum and the exponent goes up by one
(43 R185). -/
theorem addAligned_of_le {sa sb : List Bit} {n : Nat} (ha : sa.length = n) (hb : sb.length = n) (e : Nat)
    (h : 2 ^ n ≤ num sa + num sb) :
    num (addAligned sa sb e).1 = (num sa + num sb) % 2 ^ n / 2 ∧ (addAligned sa sb e).2 = e + 1 := by
  obtain ⟨hsum, hcarry⟩ := addN_sum_and_carry (ha.trans hb.symm)
  rw [ha] at hsum hcarry
  have hone : val (addN sa sb).2 = 1 := by rw [hcarry.mpr h, val_one]
  rw [addAligned, if_pos hone, num_shiftRight, hsum]
  exact ⟨rfl, rfl⟩

/-- The word of a record as a number: sign, exponent and fraction at their places (43 R177). -/
theorem fpack_eq_ofNat {x : SofterFloat} (hx : FieldWidths x) :
    fpack x = BitVec.ofNat 32 ((floatSignBit x.sign).toNat * 2 ^ 31 + num x.exponent * 2 ^ 23 + num x.fraction) := by
  have hexponent : num x.exponent < 2 ^ 8 := num_lt_of_length hx.exponent
  have hfraction : num x.fraction < 2 ^ 23 := num_lt_of_length hx.fraction
  refine BitVec.eq_of_toNat_eq ?_
  rw [fpack, BitVec.toNat_append, BitVec.toNat_append, BitVec.toNat_ofNat, BitVec.toNat_ofNat, decodeN_eq_num,
    decodeN_eq_num, Nat.mod_eq_of_lt hexponent, Nat.mod_eq_of_lt hfraction,
    ← Nat.shiftLeft_add_eq_or_of_lt hexponent, ← Nat.shiftLeft_add_eq_or_of_lt hfraction, BitVec.toNat_ofNat,
    Nat.shiftLeft_eq, Nat.shiftLeft_eq]
  have hsign := (floatSignBit x.sign).isLt
  omega

/-- The sign bit is inverted twice (43 R173). -/
theorem floatSignBit_funpack (w : Word) : (floatSignBit (funpack w).sign).toNat = w.toNat / 2 ^ 31 := by
  have hbit : (floatSignBit (funpack w).sign).toNat = (w.getLsbD 31).toNat := by
    rw [funpack_sign]
    cases w.getLsbD 31 <;> rfl
  rw [hbit, ← BitVec.testBit_toNat, Nat.toNat_testBit]
  have hlt := w.isLt
  omega

/-- The closed form in the terms of the five steps (43 R187). -/
theorem closedFadd_eq (wa wb : Word) :
    closedFadd wa wb = if 2 ^ 24 ≤ alignedSum (funpack wa) (funpack wb)
      then BitVec.ofNat 32 (wa.toNat / 2 ^ 31 * 2 ^ 31 + ((align (funpack wa) (funpack wb)).2.2 + 1) % 256 * 2 ^ 23 +
        alignedSum (funpack wa) (funpack wb) / 2 % 2 ^ 23)
      else BitVec.ofNat 32 (wa.toNat / 2 ^ 31 * 2 ^ 31 + (align (funpack wa) (funpack wb)).2.2 % 256 * 2 ^ 23 +
        alignedSum (funpack wa) (funpack wb) % 2 ^ 23) := by
  rw [align_exponent, max_comm, max_def, alignedSum_eq, num_significand (funpack_fraction_length wa),
    num_significand (funpack_fraction_length wb), decodeN_eq_num, decodeN_eq_num, num_funpack_exponent,
    num_funpack_exponent, num_funpack_fraction, num_funpack_fraction]
  rfl

theorem fieldWidths_addSameSign {a b : SofterFloat} (ha : a.fraction.length = 23) (hb : b.fraction.length = 23) :
    FieldWidths (addSameSign a b) := by
  obtain ⟨hleft, hright⟩ := align_lengths ha hb
  refine ⟨encodeN_length _ _ _, ?_⟩
  rw [addSameSign, List.length_take, addAligned_length, hleft, hright]
  rfl

/-- Step 5 (43 R186): the exponent wraps at 256 and lane 23 of the sum is dropped. -/
theorem fpack_addSameSign_eq_ofNat {a b : SofterFloat} (ha : a.fraction.length = 23) (hb : b.fraction.length = 23) :
    fpack (addSameSign a b) = BitVec.ofNat 32 ((floatSignBit a.sign).toNat * 2 ^ 31 +
      (addAligned (align a b).1 (align a b).2.1 (align a b).2.2).2 % 256 * 2 ^ 23 +
        num (addAligned (align a b).1 (align a b).2.1 (align a b).2.2).1 % 2 ^ 23) := by
  rw [fpack_eq_ofNat (fieldWidths_addSameSign ha hb), addSameSign, num_encodeN_of_le _ (by decide), num_take]
  rfl

/-- The five steps give the closed form (43 R187). The carry that step 3 puts out of the lanes is worth 2^23 in the
halved sum, so the 23-lane fraction does not hold it either way. -/
theorem fpack_addSameSign (wa wb : Word) : fpack (addSameSign (funpack wa) (funpack wb)) = closedFadd wa wb := by
  have ha := funpack_fraction_length wa
  have hb := funpack_fraction_length wb
  obtain ⟨hleft, hright⟩ := align_lengths ha hb
  rw [fpack_addSameSign_eq_ofNat ha hb, floatSignBit_funpack, closedFadd_eq]
  split
  next hcarry =>
    obtain ⟨hsum, hexponent⟩ := addAligned_of_le hleft hright (align (funpack wa) (funpack wb)).2.2 hcarry
    have hdrop : alignedSum (funpack wa) (funpack wb) % 2 ^ 24 / 2 % 2 ^ 23 =
        alignedSum (funpack wa) (funpack wb) / 2 % 2 ^ 23 := by omega
    rw [hsum, hexponent, ← hdrop, alignedSum]
  next hfits =>
    obtain ⟨hsum, hexponent⟩ :=
      addAligned_of_lt hleft hright (align (funpack wa) (funpack wb)).2.2 (Nat.lt_of_not_le hfits)
    rw [hsum, hexponent, alignedSum]

/-- FADDSS on the SofterFloats of two words (43 R180). -/
theorem exec_faddss_of_carriesFloat {s : State} {wa wb : Word} (ha : CarriesFloat s.inp.aBits wa)
    (hb : CarriesFloat s.inp.bBits wb) :
    exec .faddss s =
      .next (s.withResults (faddResults Config.unhandledFaddPolicy (funpack wa) (funpack wb))) := by
  have hwa := fieldWidths_funpack wa
  have hwb := fieldWidths_funpack wb
  have hopA := floatOperandA_of_carries (length_toLanes hwa) (carries_of_carriesFloat ha)
  have hopB := floatOperandB_of_carries (length_toLanes hwb) (carries_of_carriesFloat hb)
  rw [ofLanes_toLanes hwa] at hopA
  rw [ofLanes_toLanes hwb] at hopB
  exact (complete_two_reads_next_iff .faddss s _ _ _ _).mpr ⟨_, _, hopA, hopB, rfl⟩

theorem val_funpack_sign_eq_iff (wa wb : Word) :
    val (funpack wa).sign = val (funpack wb).sign ↔ wa.getLsbD 31 = wb.getLsbD 31 := by
  rw [funpack_sign, funpack_sign, val_bitof, val_bitof]
  cases wa.getLsbD 31 <;> cases wb.getLsbD 31 <;> decide

/-- What FADDSS drives for two words of one sign, under the default policy (43 R187, R189). -/
theorem faddResults_of_sign_eq {wa wb : Word} (h : wa.getLsbD 31 = wb.getLsbD 31) :
    faddResults Config.unhandledFaddPolicy (funpack wa) (funpack wb) =
      driveBits (toLanes (funpack (closedFadd wa wb))) := by
  have hwidths := fieldWidths_addSameSign (funpack_fraction_length wa) (funpack_fraction_length wb)
  rw [faddResults, if_neg (not_not_intro ((val_funpack_sign_eq_iff wa wb).mpr h)), ← fpack_addSameSign,
    toLanes_funpack_fpack hwidths]
  rfl

/-- What FADDSS drives for two words of different signs (43 R181). -/
theorem faddResults_of_sign_ne {wa wb : Word} (h : wa.getLsbD 31 ≠ wb.getLsbD 31) :
    faddResults Config.unhandledFaddPolicy (funpack wa) (funpack wb) = raised .unsupportedOperand := by
  rw [faddResults, if_pos (mt (val_funpack_sign_eq_iff wa wb).mp h)]

/-- Settles O28: the five steps on the fields of the words give the fields of the closed form. -/
theorem faddEqualsClosedForm : Obligations.FaddEqualsClosedForm := by
  intro s wa wb ha hb hsign
  refine ⟨_, exec_faddss_of_carriesFloat ha hb, sameInputs_withResults s _, ?_⟩
  rw [State.withResults_out, faddResults_of_sign_eq hsign]
  exact holds_driveBits_funpack (closedFadd wa wb)

/-- Settles O29: the sign lanes of the words differ, and no value is looked at. -/
theorem faddRefusesDifferentSigns : Obligations.FaddRefusesDifferentSigns := by
  intro s wa wb ha hb hsign
  refine ⟨_, exec_faddss_of_carriesFloat ha hb, sameInputs_withResults s _, ?_⟩
  rw [State.withResults_out, faddResults_of_sign_ne hsign]
  exact onlyStatus_raised .unsupportedOperand

/-- Settles O30: FADDSS reads the 32 lanes of A_BITS and then those of B_BITS. -/
theorem faddChecksLanesFirst : Obligations.FaddChecksLanesFirst :=
  ⟨rfl, faultsAtFirstLaneOfTwo_of_lanesRead (by decide) rfl⟩

/-- Settles O31: an aligned significand has 24 lanes. -/
theorem faddNeedsAtMostOneShift : Obligations.FaddNeedsAtMostOneShift := by
  intro a b _ ha _ hb
  obtain ⟨hleft, hright⟩ := align_lengths ha hb
  have hltLeft : num (align a b).1 < 2 ^ 24 := num_lt_of_length hleft
  have hltRight : num (align a b).2.1 < 2 ^ 24 := num_lt_of_length hright
  exact ⟨hltLeft, hltRight, by omega, by omega⟩

/-- Settles O32: a difference of 24 or more shifts out every lane of a significand. -/
theorem alignmentShiftsSmallerOperand : Obligations.AlignmentShiftsSmallerOperand := by
  intro a b ha hb
  refine ⟨align_exponent a b, num_align_left a b, num_align_right a b, fun hd => ?_, fun hd => ?_⟩
  · rw [num_align_left, significand_div_eq_zero ha (Nat.le_sub_of_add_le' hd)]
  · rw [num_align_right, significand_div_eq_zero hb (Nat.le_sub_of_add_le' hd)]

/-- Settles O33: the closed form at the two words, lane by lane. -/
theorem twoPlusOnePointEight : Obligations.TwoPlusOnePointEight := by
  intro s ha hb
  have hvalue : closedFadd 0x40000000 0x3FE66666 = 0x40733333 := by decide
  obtain ⟨t, hexec, -, hbits, -⟩ := faddEqualsClosedForm s _ _ ha hb (by decide)
  refine ⟨t, hexec, fun k => ?_⟩
  rw [hbits k, hvalue, firstLanes, if_pos k.isLt]

/-- Settles O34: a free draw is made in the unhandled cases alone (43 R189). -/
theorem policiesAgreeOnHandledCases : Obligations.PoliciesAgreeOnHandledCases := by
  intro a b h
  simp [faddLanes, h]

end Sys2Proof.Proofs
end

section
/-! SUPPORT. The STATUS of a command, and of a step with a byte on CMD: there is one, an error drives nothing else, and
the errors are those of spec 60 R200 to R205. -/

namespace Sys2Proof.Proofs

open Sys2Proof.Machine Sys2Proof.Safety

theorem not_exec_refused (i : Instr) (s : State) (why : Refusal) : exec i s ≠ .refused why := by
  obtain ⟨r, hr⟩ := exec_eq_complete i s
  rw [hr]
  exact complete_not_refused i s r why

theorem exec_fault_eq_domainViolation {i : Instr} {s : State} {f : Fault} (h : exec i s = .fault f) :
    ∃ bad, f = .domainViolation i bad (raised .domainViolation) := by
  obtain ⟨r, hr⟩ := exec_eq_complete i s
  obtain ⟨bad, -, hf⟩ := (complete_fault_iff i s f r).mp (hr ▸ h)
  exact ⟨bad, hf⟩

/-- A reading of lanes that can end in no STATUS but OK, unless a lane is bad. -/
def DrivesOk (q : Except BadLane Results) : Prop := ∀ r, q = .ok r → r.status = some .ok

theorem DrivesOk.ok {r : Results} (h : r.status = some .ok) : DrivesOk (.ok r) := by
  rintro _ ⟨⟩
  exact h

theorem DrivesOk.read {α : Type} {x : Except BadLane α} {f : α → Except BadLane Results} (hf : ∀ a, DrivesOk (f a)) :
    DrivesOk (x >>= f) := by
  intro r h
  obtain ⟨a, -, ha⟩ := read_bind_eq_ok_iff.mp h
  exact hf a r ha

/-- The commands by the number of operands they read from lanes: each ends in a record with STATUS = OK, but for FADDSS,
the one command with an error of its own (60 R203). -/
theorem exec_drivesOk {i : Instr} (hi : i ≠ .faddss) (s : State) : ∃ q, exec i s = complete i s q ∧ DrivesOk q := by
  cases i with
  | encb | enc8 | enc23 | enc24 | enc32 | funpack => exact ⟨.ok _, rfl, .ok rfl⟩
  | isone | notGate | dec8 | dec23 | dec24 | dec32 | shr8 | shr23 | shr24 | shr32 | fpack =>
    exact ⟨_, rfl, .read fun _ => .ok rfl⟩
  | fsub | orGate | andGate | xorGate | add8 | add23 | add24 | add32 =>
    exact ⟨_, rfl, .read fun _ => .read fun _ => .ok rfl⟩
  | fa => exact ⟨_, rfl, .read fun _ => .read fun _ => .read fun _ => .ok rfl⟩
  | faddss => exact absurd rfl hi

theorem status_of_exec_next {i : Instr} {s t : State} (hi : i ≠ .faddss) (h : exec i s = .next t) :
    t.out.status = some .ok := by
  obtain ⟨q, hq, hok⟩ := exec_drivesOk hi s
  obtain ⟨r, hr, rfl⟩ := (complete_next_iff i s t q).mp (hq ▸ h)
  exact hok r hr

theorem faddResults_status (policy : FaddPolicy) (a b : SofterFloat) :
    (faddResults policy a b).status = some .ok ∨
      ((faddResults policy a b).status = some .unsupportedOperand ∧ a.sign ≠ b.sign) := by
  unfold faddResults
  split
  next hsign => exact .inr ⟨rfl, fun heq => hsign (congrArg val heq)⟩
  next => exact .inl rfl

/-- The sign Bit of a softer float is on lane 31 (43 R170). -/
theorem lane_eq_pat_ofLanes_sign {lanes : Vector Word 32} {bs : List Bit}
    (h : lanes.toList.take 32 = bs.map pat) : lanes[31] = pat (ofLanes bs).sign := by
  have hlen : bs.length = 32 := length_of_take_eq_map_pat h
  have hlane : bs[31]?.map pat = some lanes[31] := lane_of_carries hlen (by rwa [Carries, hlen]) (by decide)
  rw [List.getElem?_eq_getElem (by omega), Option.map_some, Option.some_inj] at hlane
  rw [← hlane, ofLanes, List.getD_eq_getElem _ _ (by omega)]

theorem floatOperandA_sign_lane {s : State} {x : SofterFloat} (h : floatOperandA s = .ok x) :
    s.inp.aBits[31] = pat x.sign := by
  obtain ⟨bs, hbs, rfl⟩ := (floatOperandA_ok_iff s x).mp h
  exact lane_eq_pat_ofLanes_sign hbs

theorem floatOperandB_sign_lane {s : State} {x : SofterFloat} (h : floatOperandB s = .ok x) :
    s.inp.bBits[31] = pat x.sign := by
  obtain ⟨bs, hbs, rfl⟩ := (floatOperandB_ok_iff s x).mp h
  exact lane_eq_pat_ofLanes_sign hbs

/-- FADDSS that goes on ends OK, or with UNSUPPORTED_OPERAND on sign lanes that differ (43 R181). -/
theorem status_of_faddss_next {s t : State} (h : exec .faddss s = .next t) :
    t.out.status = some .ok ∨
      (t.out.status = some .unsupportedOperand ∧ s.inp.aBits[31] ≠ s.inp.bBits[31]) := by
  obtain ⟨a, b, ha, hb, rfl⟩ := (complete_two_reads_next_iff .faddss s t _ _ _).mp h
  rw [floatOperandA_sign_lane ha, floatOperandB_sign_lane hb, State.withResults_out]
  exact (faddResults_status Config.unhandledFaddPolicy a b).imp_right
    fun ⟨hstatus, hsign⟩ => ⟨hstatus, mt (pat_injective a.sign b.sign) hsign⟩

/-- Settles O36: a command is completed with its results or its first bad lane, and only FADDSS has results that are not
OK. -/
theorem noOtherErrorExists : Obligations.NoOtherErrorExists := by
  refine fun i s => ⟨not_exec_refused i s, fun f h => ?_, fun t h => ?_⟩
  · obtain ⟨bad, hf⟩ := exec_fault_eq_domainViolation h
    exact ⟨bad, _, hf⟩
  · by_cases hi : i = .faddss
    · subst hi
      exact (status_of_faddss_next h).imp_right fun ⟨hstatus, hlanes⟩ => ⟨hstatus, rfl, hlanes⟩
    · exact .inl (status_of_exec_next hi h)

theorem CommandRecord.exists_status {r : Results} (h : CommandRecord r) : ∃ st, r.status = some st := by
  cases h with
  | bits | bitsAndCarry | word | bool => exact ⟨.ok, rfl⟩
  | unsupported => exact ⟨.unsupportedOperand, rfl⟩

theorem onlyStatus_of_errorsDriveNothing {r : Results} {st : Status} (h : ErrorsDriveNothing r)
    (hstatus : r.status = some st) (hne : st ≠ .ok) : OnlyStatus r st := by
  obtain ⟨hbits, hco, hword, hbool⟩ := h fun hok => hne (Option.some.inj (hstatus.symm.trans hok))
  exact ⟨hbits, hco, hword, hbool, hstatus⟩

/-- What the host gets from a presented byte out of reset: the record of a command that goes on, or of an error. -/
theorem answered_step_cases {s : State} {c : CmdByte} (hreset : s.inReset = false) (hcmd : s.cmd = some c) :
    ∃ r, answered (step s) = some r ∧ (CommandRecord r ∨ ∃ st, r = raised st) := by
  cases hd : decode c with
  | error why =>
    exact ⟨_, by rw [step_of_decode_error hcmd hreset hd, answered_illegal], .inr ⟨.illegalCommand, rfl⟩⟩
  | ok i =>
    rw [step_of_decode_ok hcmd hreset hd]
    obtain ⟨r, -, hrecord, hnext⟩ | ⟨bad, -, hfault⟩ := exec_cases i s
    · exact ⟨r, by rw [hnext]; rfl, .inl hrecord⟩
    · exact ⟨_, by rw [hfault]; rfl, .inr ⟨.domainViolation, rfl⟩⟩

/-- Settles O43: each of these records has a STATUS, and drives nothing else unless it is OK. -/
theorem errorDrivesOnlyStatus : Obligations.ErrorDrivesOnlyStatus := by
  intro s c hreset hcmd
  obtain ⟨r, hr, hrecord | ⟨st, rfl⟩⟩ := answered_step_cases hreset hcmd
  · obtain ⟨st, hst⟩ := hrecord.exists_status
    exact ⟨r, st, hr, hst, onlyStatus_of_errorsDriveNothing hrecord.errorsDriveNothing hst⟩
  · exact ⟨_, st, hr, raised_status st, fun _ => onlyStatus_raised st⟩

/-- Settles O44: `statusCode` is the table of 60 R200. -/
theorem statusCodes : Obligations.StatusCodes := ⟨rfl, rfl, rfl, rfl⟩

end Sys2Proof.Proofs
end

section
/-! SUPPORT. Reset as a command sees it: while it is asserted a command has no step, and once it is released nothing of it
reaches a command's record (spec 70 R230, R231). -/

namespace Sys2Proof.Proofs

open Sys2Proof.Machine Sys2Proof.Safety

/-- Any number of resets ends out of reset: with none the state is as before, else the last thing done is a release. -/
theorem iterate_reset_inReset {s : State} (h : s.inReset = false) (n : Nat) :
    ((fun u : State => u.assertReset.releaseReset)^[n] s).inReset = false := by
  cases n with
  | zero => exact h
  | succ n =>
    rw [Function.iterate_succ_apply']
    exact State.releaseReset_inReset _

/-- Settles O47: the record of a presented transaction depends on the reset condition alone, and resets leave it
released. -/
theorem resetsChangeNoAnswer : Obligations.ResetsChangeNoAnswer :=
  fun _ t n h => answered_step_present t ((iterate_reset_inReset h n).trans h.symm)

/-- Settles O3, by the step equation of a byte on CMD in reset. -/
theorem commandDuringResetIsStuck : Obligations.CommandDuringResetIsStuck :=
  fun _ _ hcmd hreset => step_of_inReset hcmd hreset

end Sys2Proof.Proofs
end
